-- ==== Sys2Proof/Word.lean ====
section
/-! DEFINITION. The words the block moves: bytes, 16-bit samples, binary32 patterns, bus addresses
(00_scope.md R8 to R10). -/

namespace Sys2Proof

/-- `u8`: a byte, bit 0 least significant (R8). -/
abbrev Byte := BitVec 8

/-- `i16`: a 16-bit pattern; `BitVec.toInt` is the rule's `to_i16` (R9). -/
abbrev I16 := BitVec 16

/-- `f32`: the 32 bits of an IEEE 754 binary32 value (R10). -/
abbrev F32 := BitVec 32

/-- A 7-bit address of the addressed bus (R6). -/
abbrev BusAddr := BitVec 7

end Sys2Proof
end

