-- ==== Sys2Proof/Config.lean ====
section
/-! DEFINITION. What an instantiation of the block fixes (00_scope.md R6) and the free values:
what the platform answers, and which NaN an arithmetic operation makes. -/

namespace Sys2Proof

/-- `BUS_KIND` (R6): which transport variant the block owns (R23). -/
inductive BusKind where
  | serial
  | addressed
deriving DecidableEq, Repr, Inhabited

/-- `REGMAP` (20_memory.md R55): one offset for each register the block names. -/
structure RegMap where
  ctrlReg1G : Byte
  ctrlReg2G : Byte
  ctrlReg3G : Byte
  outTempL : Byte
  outXLG : Byte
  ctrlReg4 : Byte
  ctrlReg5Xl : Byte
  ctrlReg6Xl : Byte
  ctrlReg7Xl : Byte
  ctrlReg8 : Byte
  outXLXl : Byte
  ctrlReg1M : Byte
  ctrlReg2M : Byte
  ctrlReg3M : Byte
  ctrlReg4M : Byte
  outXLM : Byte
deriving DecidableEq, Repr

/-- `SENS` (42_unit_conversion.md R221): one binary32 sensitivity per sensor and full scale. -/
structure SensTable where
  xlG2 : F32
  xlG4 : F32
  xlG8 : F32
  xlG16 : F32
  gDps245 : F32
  gDps500 : F32
  gDps2000 : F32
  mG4 : F32
  mG8 : F32
  mG12 : F32
  mG16 : F32
deriving DecidableEq, Repr

/-- `cfg` (10_state.md R22): the construction arguments of 00_scope.md R6. -/
structure Cfg where
  kind : BusKind
  agAddr : BusAddr
  mAddr : BusAddr
  maxBurst : Nat
  tempScale : F32
  tempOffset : F32
  magSim : BitVec 1
  regmap : RegMap
  sens : SensTable
deriving DecidableEq, Repr

/-- One answer of the oracle to a transfer primitive (10_state.md R33). To `I2cWrite` the answer
`ok` carries no bytes: the list is then not looked at. -/
inductive Draw where
  | ok (inb : List Byte)
  | fail
  | noAnswer
deriving DecidableEq, Repr, Inhabited

/-- FREE VALUE (R33): what the oracle answers to the `k`-th transfer primitive, where no answer
stands in the state's own list. Nothing constrains it. Assumption log 1. -/
opaque Config.draw : Nat → Draw

/-- FREE VALUE: the NaN that an operation on the two operands makes, up to being a quiet NaN. R10
names IEEE 754 and does not say which NaN. Assumption log 9. -/
opaque Config.nan : F32 → F32 → F32

end Sys2Proof
end

