-- ==== Sys2Proof/Machine/Binary32.lean ====
section
/-! DEFINITION. IEEE 754 binary32 as 00_scope.md R10 uses it: exact values, `rnd` (nearest, ties to
even), and `fmul`, `fdiv` and `fadd` with one rounding each. -/

namespace Sys2Proof.Machine

/-- What a binary32 pattern stands for: `fin neg m e` is `(-1)^neg * m * 2^e`. -/
inductive FView where
  | nan
  | inf (neg : Bool)
  | fin (neg : Bool) (m : Nat) (e : Int)
deriving DecidableEq, Repr

/-- The sign bit. -/
def fSign (b : F32) : Bool := b.getLsbD 31

/-- The biased exponent field, bits 30:23. -/
def fExp (b : F32) : Nat := b.toNat / 0x800000 % 0x100

/-- The fraction field, bits 22:0. -/
def fFrac (b : F32) : Nat := b.toNat % 0x800000

/-- The value of a pattern (R10, IEEE 754 binary32). -/
def fView (b : F32) : FView :=
  if fExp b = 0xFF then (if fFrac b = 0 then .inf (fSign b) else .nan)
  else if fExp b = 0 then .fin (fSign b) (fFrac b) (-149)
  else .fin (fSign b) (0x800000 + fFrac b) ((fExp b : Int) - 150)

/-- A pattern from its sign and its lower 31 bits. -/
def fPack (neg : Bool) (mag : Nat) : F32 :=
  BitVec.ofNat 32 ((if neg then 0x80000000 else 0) + mag)

/-- Infinity (IEEE 754). -/
def fInf (neg : Bool) : F32 := fPack neg 0x7F800000

/-- A quiet NaN whose remaining bits are free (assumption log 9). -/
def fNan (a b : F32) : F32 := Config.nan a b ||| 0x7FC00000

/-- `m / 2^k` rounded to an integer, ties to the even one. -/
def roundShift (m k : Nat) : Nat :=
  let q := m / 2 ^ k
  let r := m % 2 ^ k
  if 2 * r > 2 ^ k ∨ (2 * r = 2 ^ k ∧ q % 2 = 1) then q + 1 else q

/-- `rnd` of the exact real `(-1)^neg * m * 2^e` (R10). The result is a multiple of `2^q`, where `q`
puts the leading bit of `m * 2^e` at bit 23 and is at least -149. A carry out of the 24-bit
significand runs on into the exponent field. A magnitude past the largest finite one is infinity. -/
def rnd (neg : Bool) (m : Nat) (e : Int) : F32 :=
  if m = 0 then fPack neg 0
  else
    let q : Int := max (e + m.log2 - 23) (-149)
    let n : Nat := if q ≤ e then m * 2 ^ (e - q).toNat else roundShift m (q - e).toNat
    let mag : Nat := (q + 149).toNat * 0x800000 + n
    if mag < 0x7F800000 then fPack neg mag else fInf neg

/-- `rnd` of the exact real `(-1)^neg * (num / den) * 2^e`. The quotient is taken to 65 bits below the
unit; its last bit is 1 when the division left a remainder, which keeps every tie exact. -/
def rndQuot (neg : Bool) (num den : Nat) (e : Int) : F32 :=
  let q := num * 2 ^ 64 / den
  let sticky := if num * 2 ^ 64 % den = 0 then 0 else 1
  rnd neg (2 * q + sticky) (e - 65)

/-- `fmul(a, b) = rnd(a * b)` (R10). -/
def fmul (a b : F32) : F32 :=
  match fView a, fView b with
  | .fin s m e, .fin t n f => rnd (s ^^ t) (m * n) (e + f)
  | .inf s, .inf t => fInf (s ^^ t)
  | .inf s, .fin t n _ => if n = 0 then fNan a b else fInf (s ^^ t)
  | .fin s m _, .inf t => if m = 0 then fNan a b else fInf (s ^^ t)
  | _, _ => fNan a b

/-- `fdiv(a, b) = rnd(a / b)` (R10). A zero divisor, which R6 does not allow, follows IEEE 754. -/
def fdiv (a b : F32) : F32 :=
  match fView a, fView b with
  | .fin s m e, .fin t n f =>
    if n = 0 then (if m = 0 then fNan a b else fInf (s ^^ t))
    else rndQuot (s ^^ t) m n (e - f)
  | .inf s, .fin t _ _ => fInf (s ^^ t)
  | .fin s _ _, .inf t => fPack (s ^^ t) 0
  | _, _ => fNan a b

/-- A finite operand as a signed integer multiple of `2^g`, for `g` at most its own exponent. -/
def fAlign (s : Bool) (m : Nat) (e g : Int) : Int :=
  let v : Int := m * 2 ^ (e - g).toNat
  if s then -v else v

/-- `fadd(a, b) = rnd(a + b)` (R10). An exact zero sum is `+0.0`, but for two negative zeros (R228). -/
def fadd (a b : F32) : F32 :=
  match fView a, fView b with
  | .fin s m e, .fin t n f =>
    let g := min e f
    let v := fAlign s m e g + fAlign t n f g
    if v = 0 then fPack (s && t) 0 else rnd (decide (v < 0)) v.natAbs g
  | .inf s, .inf t => if s = t then fInf s else fNan a b
  | .inf s, .fin _ _ _ => fInf s
  | .fin _ _ _, .inf t => fInf t
  | _, _ => fNan a b

/-- `float(r)`: the exact binary32 of an `i16` (R10). -/
def float (r : I16) : F32 := rnd (decide (r.toInt < 0)) r.toInt.natAbs 0

end Sys2Proof.Machine
end

