-- ==== Sys2Proof/Syntax.lean ====
section
/-! DEFINITION. The commands and wire frames of spec/opcode_table.json, their operands, and the form
in which a caller presents them (30_encoding.md R89 to R92). -/

namespace Sys2Proof

/-- A physical device: the accel+gyro core or the magnetometer (00_scope.md R15). -/
inductive Dev where
  | ag
  | m
deriving DecidableEq, Repr, Inhabited

/-- A sensor with a lifecycle (00_scope.md R15). -/
inductive Sensor where
  | xl
  | g
  | m
deriving DecidableEq, Repr, Inhabited

/-! ### Accelerometer settings (41_settings_encoder.md R154 to R158) -/

/-- ODR_XL (R155). -/
inductive AccelOdr where
  | powerDown | hz10 | hz50 | hz119 | hz238 | hz476 | hz952
deriving DecidableEq, Repr

/-- FS_XL (R156). -/
inductive AccelScale where
  | g2 | g16 | g4 | g8
deriving DecidableEq, Repr

/-- BW_SCAL_ODR (R157). -/
inductive AccelBwSelect where
  | byOdr | byBwXl
deriving DecidableEq, Repr

/-- BW_XL (R157). -/
inductive AccelBw where
  | hz408 | hz211 | hz105 | hz50
deriving DecidableEq, Repr

/-- DCF (R158). -/
inductive AccelHrCutoff where
  | odrDiv50 | odrDiv100 | odrDiv9 | odrDiv400
deriving DecidableEq, Repr

/-- R154. -/
structure AccelSettings where
  enableX : Bool
  enableY : Bool
  enableZ : Bool
  odr : AccelOdr
  scale : AccelScale
  bwSelect : AccelBwSelect
  bandwidth : AccelBw
  highRes : Bool
  hrCutoff : AccelHrCutoff
deriving DecidableEq, Repr

/-! ### Gyroscope settings (R163 to R168) -/

/-- ODR_G (R164). -/
inductive GyroOdr where
  | powerDown | hz14_9 | hz59_5 | hz119 | hz238 | hz476 | hz952
deriving DecidableEq, Repr

/-- FS_G (R165). -/
inductive GyroScale where
  | dps245 | dps500 | dps2000
deriving DecidableEq, Repr

/-- BW_G (R166). -/
inductive GyroBw where
  | bw0 | bw1 | bw2 | bw3
deriving DecidableEq, Repr

/-- HPCF_G (R167). -/
inductive GyroHpcf where
  | c0 | c1 | c2 | c3 | c4 | c5 | c6 | c7 | c8 | c9
deriving DecidableEq, Repr

/-- INT_SEL and OUT_SEL (R168). -/
inductive GyroPath where
  | path0 | path1 | path2 | path3
deriving DecidableEq, Repr

/-- R163. -/
structure GyroSettings where
  enableX : Bool
  enableY : Bool
  enableZ : Bool
  odr : GyroOdr
  scale : GyroScale
  bandwidth : GyroBw
  intSel : GyroPath
  outSel : GyroPath
  lowPower : Bool
  hpfEnable : Bool
  hpfCutoff : GyroHpcf
deriving DecidableEq, Repr

/-! ### Magnetometer settings (R175 to R180) -/

/-- DO (R176). -/
inductive MagOdr where
  | hz0_625 | hz1_25 | hz2_5 | hz5 | hz10 | hz20 | hz40 | hz80
deriving DecidableEq, Repr

/-- OM and OMZ (R178). -/
inductive MagPerf where
  | lowPower | medium | high | ultraHigh
deriving DecidableEq, Repr

/-- FS (R179). -/
inductive MagScale where
  | g4 | g8 | g12 | g16
deriving DecidableEq, Repr

/-- MD (R180). -/
inductive MagMode where
  | continuous | single | powerDown
deriving DecidableEq, Repr

/-- R175. -/
structure MagSettings where
  odr : MagOdr
  fastOdr : Bool
  xyMode : MagPerf
  zMode : MagPerf
  scale : MagScale
  lowPower : Bool
  mode : MagMode
deriving DecidableEq, Repr

/-- A settings record of some sensor (10_state.md R27). -/
inductive Settings where
  | xl (a : AccelSettings)
  | g (g : GyroSettings)
  | m (m : MagSettings)
deriving DecidableEq, Repr

/-! ### Instructions -/

/-- What follows the pointer byte of the addressed bus: the data of a write, or a repeated-start read
of `n` bytes (30_encoding.md R86, R87). -/
inductive PtrUse where
  | write (data : List Byte)
  | read (n : Nat)
deriving DecidableEq, Repr

/-- One constructor per row of spec/opcode_table.json: the 28 commands (R90 to R92), then the seven
wire-frame rows (R81, R82, R88), each with the whole frame its byte opens. -/
inductive Instr where
  | cfgXl (a : AccelSettings)
  | cfgG (g : GyroSettings)
  | cfgM (m : MagSettings)
  | enXl
  | enG
  | enM
  | rdXl
  | rdG
  | rdM
  | rdT
  | rdrawXl
  | rdrawG
  | rdrawM
  | rdrawT
  | twrAg (reg : Byte) (data : List Byte)
  | twrM (reg : Byte) (data : List Byte)
  | trdAg (reg : Byte) (n : Nat)
  | trdM (reg : Byte) (n : Nat)
  | encXl (a : AccelSettings)
  | encG (g : GyroSettings)
  | encM (m : MagSettings)
  | sensXl (k : AccelScale)
  | sensG (k : GyroScale)
  | sensM (k : MagScale)
  | convXl (k : AccelScale) (x y z : I16)
  | convG (k : GyroScale) (x y z : I16)
  | convM (k : MagScale) (x y z : I16)
  | tconv (raw : I16)
  | spiAgWrite (reg : Byte) (data : List Byte)
  | spiAgRead (reg : Byte) (n : Nat)
  | spiMWrite1 (reg : Byte) (b : Byte)
  | spiMWriteB (reg : Byte) (data : List Byte)
  | spiMRead1 (reg : Byte)
  | spiMReadB (reg : Byte) (n : Nat)
  | i2cAgPtr (reg : Byte) (use : PtrUse)
deriving DecidableEq, Repr

/-! ### What a caller presents -/

/-- The typed operand payload of a command word (R92). -/
inductive Payload where
  | none
  | accel (a : AccelSettings)
  | gyro (g : GyroSettings)
  | mag (m : MagSettings)
  | write (reg : Byte) (data : List Byte)
  | read (reg : Byte) (n : Nat)
  | accelScale (k : AccelScale)
  | gyroScale (k : GyroScale)
  | magScale (k : MagScale)
  | accelRaw (k : AccelScale) (x y z : I16)
  | gyroRaw (k : GyroScale) (x y z : I16)
  | magRaw (k : MagScale) (x y z : I16)
  | raw (r : I16)
deriving DecidableEq, Repr

/-- The bytes of one logical operation on the wire (R84 to R87): the `out` bytes of the transfer under
one chip-select, or of an addressed-bus `write`, or of a `write_read` with its count. -/
inductive WireFrame where
  | spi (d : Dev) (out : List Byte)
  | i2cWrite (out : List Byte)
  | i2cWriteRead (out : List Byte) (n : Nat)
deriving DecidableEq, Repr

/-- One entry of the command interface: a command word with its payload (R89). `frame` is the model's
own door to the seven wire-frame rows (assumption log 5). -/
inductive Request where
  | command (word : Byte) (p : Payload)
  | frame (f : WireFrame)
deriving DecidableEq, Repr

end Sys2Proof
end

