-- ==== Sys2Proof/WellFormed.lean ====
section
/-! DEFINITION. Which instructions can be written down in the encoding of 30_encoding.md, and which
configurations the spec admits (00_scope.md R6, R7).

A command is well formed whatever its operands: an out-of-range operand is refused by the block
(R95), not by the encoding. A wire-frame row fixes its register's width and its byte count. -/

namespace Sys2Proof

/-- `A6..A0` hold the register of a serial `AG` frame (R81). -/
def fitsSpiAg (reg : Byte) : Bool := decide (reg.toNat ≤ 0x7F)

/-- `A5..A0` hold the register of a serial `M` frame (R82). -/
def fitsSpiM (reg : Byte) : Bool := decide (reg.toNat ≤ 0x3F)

/-- The form of each wire-frame row (R81 to R88): a frame moves at least one data byte, and `MS` is set
exactly when an `M` frame moves more than one (R83). -/
def Instr.wf : Instr → Bool
  | .cfgXl _ | .cfgG _ | .cfgM _ => true
  | .enXl | .enG | .enM => true
  | .rdXl | .rdG | .rdM | .rdT => true
  | .rdrawXl | .rdrawG | .rdrawM | .rdrawT => true
  | .twrAg _ _ | .twrM _ _ | .trdAg _ _ | .trdM _ _ => true
  | .encXl _ | .encG _ | .encM _ => true
  | .sensXl _ | .sensG _ | .sensM _ => true
  | .convXl _ _ _ _ | .convG _ _ _ _ | .convM _ _ _ _ => true
  | .tconv _ => true
  | .spiAgWrite reg data => fitsSpiAg reg && decide (1 ≤ data.length)
  | .spiAgRead reg n => fitsSpiAg reg && decide (1 ≤ n)
  | .spiMWrite1 reg _ => fitsSpiM reg
  | .spiMWriteB reg data => fitsSpiM reg && decide (2 ≤ data.length)
  | .spiMRead1 reg => fitsSpiM reg
  | .spiMReadB reg n => fitsSpiM reg && decide (2 ≤ n)
  | .i2cAgPtr _ (.write data) => decide (1 ≤ data.length)
  | .i2cAgPtr _ (.read n) => decide (1 ≤ n)

/-- The constraints on the parameters: `MAX_BURST` at least 6, `TEMP_SCALE` not zero (of either sign),
and `REGMAP.OUT_X_L_XL = 0x28` (R6, R7). The machine runs on any configuration (assumption log 16).
DESIGN CHOICE, assumption log 20, unsafe: a `REGMAP` that gives two registers of one sensor the same
offset is admitted, because R6 and R7 set no such limit. -/
def Cfg.wf (c : Cfg) : Bool :=
  decide (6 ≤ c.maxBurst) && decide (c.tempScale.toNat % 0x80000000 ≠ 0) &&
    decide (c.regmap.outXLXl = 0x28)

end Sys2Proof
end

