-- ==== Sys2Proof/Decode.lean ====
section
/-! DEFINITION. From what stands on the command interface or on the wire to an instruction, and back
(30_encoding.md R81 to R96; opcode_table.json). The decoder is total and rejects by name. -/

namespace Sys2Proof

/-- Why a request is no instruction. -/
inductive DecodeError where
  /-- `op` or `tgt` is reserved (R94). -/
  | reservedCommand
  /-- The payload is not of the type that the command word fixes (R92, R96). -/
  | payloadMismatch
  /-- A frame with no address byte, or moving no data byte (R84 to R87). -/
  | emptyFrame
  /-- A serial read frame whose filler is not `0x00` (R85). -/
  | badFiller
  /-- An `M` frame whose `MS` bit does not agree with its byte count (R83). -/
  | badMs
  /-- A `write_read` whose pointer is not one byte (R87). -/
  | badPointer
deriving DecidableEq, Repr

/-! ### Command words -/

/-- The 28 command words of R90 and R91. -/
inductive Cmd where
  | cfgXl | cfgG | cfgM
  | enXl | enG | enM
  | rdXl | rdG | rdM | rdT
  | rdrawXl | rdrawG | rdrawM | rdrawT
  | twrAg | twrM
  | trdAg | trdM
  | encXl | encG | encM
  | sensXl | sensG | sensM
  | convXl | convG | convM
  | tconv
deriving DecidableEq, Repr

/-- Bits 7:4 of a command word (R89). -/
def opOf (w : Byte) : Nat := w.toNat / 16

/-- Bits 3:0 of a command word (R89). -/
def tgtOf (w : Byte) : Nat := w.toNat % 16

/-- R90 and R91: the command that an `op` and a `tgt` select. -/
def cmdOf (op tgt : Nat) : Option Cmd :=
  match op, tgt with
  | 0x1, 0x0 => some .cfgXl
  | 0x1, 0x1 => some .cfgG
  | 0x1, 0x2 => some .cfgM
  | 0x2, 0x0 => some .enXl
  | 0x2, 0x1 => some .enG
  | 0x2, 0x2 => some .enM
  | 0x3, 0x0 => some .rdXl
  | 0x3, 0x1 => some .rdG
  | 0x3, 0x2 => some .rdM
  | 0x3, 0x3 => some .rdT
  | 0x4, 0x0 => some .rdrawXl
  | 0x4, 0x1 => some .rdrawG
  | 0x4, 0x2 => some .rdrawM
  | 0x4, 0x3 => some .rdrawT
  | 0x5, 0x0 => some .twrAg
  | 0x5, 0x1 => some .twrM
  | 0x6, 0x0 => some .trdAg
  | 0x6, 0x1 => some .trdM
  | 0x7, 0x0 => some .encXl
  | 0x7, 0x1 => some .encG
  | 0x7, 0x2 => some .encM
  | 0x8, 0x0 => some .sensXl
  | 0x8, 0x1 => some .sensG
  | 0x8, 0x2 => some .sensM
  | 0x9, 0x0 => some .convXl
  | 0x9, 0x1 => some .convG
  | 0x9, 0x2 => some .convM
  | 0xA, 0x0 => some .tconv
  | _, _ => none

/-- The command that a command word selects, if it is not reserved (R94). -/
def decodeWord (w : Byte) : Option Cmd := cmdOf (opOf w) (tgtOf w)

/-- The payload type is fixed by the command word (R92, R96). -/
def withPayload (c : Cmd) (p : Payload) : Except DecodeError Instr :=
  match c, p with
  | .cfgXl, .accel a => .ok (.cfgXl a)
  | .cfgG, .gyro g => .ok (.cfgG g)
  | .cfgM, .mag m => .ok (.cfgM m)
  | .enXl, .none => .ok .enXl
  | .enG, .none => .ok .enG
  | .enM, .none => .ok .enM
  | .rdXl, .none => .ok .rdXl
  | .rdG, .none => .ok .rdG
  | .rdM, .none => .ok .rdM
  | .rdT, .none => .ok .rdT
  | .rdrawXl, .none => .ok .rdrawXl
  | .rdrawG, .none => .ok .rdrawG
  | .rdrawM, .none => .ok .rdrawM
  | .rdrawT, .none => .ok .rdrawT
  | .twrAg, .write reg data => .ok (.twrAg reg data)
  | .twrM, .write reg data => .ok (.twrM reg data)
  | .trdAg, .read reg n => .ok (.trdAg reg n)
  | .trdM, .read reg n => .ok (.trdM reg n)
  | .encXl, .accel a => .ok (.encXl a)
  | .encG, .gyro g => .ok (.encG g)
  | .encM, .mag m => .ok (.encM m)
  | .sensXl, .accelScale k => .ok (.sensXl k)
  | .sensG, .gyroScale k => .ok (.sensG k)
  | .sensM, .magScale k => .ok (.sensM k)
  | .convXl, .accelRaw k x y z => .ok (.convXl k x y z)
  | .convG, .gyroRaw k x y z => .ok (.convG k x y z)
  | .convM, .magRaw k x y z => .ok (.convM k x y z)
  | .tconv, .raw r => .ok (.tconv r)
  | _, _ => .error .payloadMismatch

/-- A command word is looked at first, its payload after it (R89, R129). -/
def decodeCommand (w : Byte) (p : Payload) : Except DecodeError Instr :=
  match decodeWord w with
  | none => .error .reservedCommand
  | some c => withPayload c p

/-! ### Wire frames -/

/-- The register field of a serial `AG` address byte, bits 6:0 (R81). -/
def spiAgReg (a : Byte) : Byte := a &&& 0x7F

/-- The register field of a serial `M` address byte, bits 5:0 (R82). -/
def spiMReg (a : Byte) : Byte := a &&& 0x3F

/-- Every byte after the address byte of a serial read is the filler `0x00` (R85). -/
def isFiller (bs : List Byte) : Bool := bs.all (· == 0)

/-- A serial frame of device `AG`: bit 7 tells a read from a write (R81, R96). -/
def decodeSpiAg (a : Byte) (rest : List Byte) : Except DecodeError Instr :=
  if rest = [] then .error .emptyFrame
  else if a.getLsbD 7 then
    if isFiller rest then .ok (.spiAgRead (spiAgReg a) rest.length) else .error .badFiller
  else .ok (.spiAgWrite (spiAgReg a) rest)

/-- A serial frame of device `M`: bit 7 as for `AG`, bit 6 is `MS` (R82, R83). -/
def decodeSpiM (a : Byte) (rest : List Byte) : Except DecodeError Instr :=
  if a.getLsbD 7 then
    if isFiller rest then
      match rest with
      | [] => .error .emptyFrame
      | [_] => if a.getLsbD 6 then .error .badMs else .ok (.spiMRead1 (spiMReg a))
      | _ :: _ :: _ =>
        if a.getLsbD 6 then .ok (.spiMReadB (spiMReg a) rest.length) else .error .badMs
    else .error .badFiller
  else
    match rest with
    | [] => .error .emptyFrame
    | [b] => if a.getLsbD 6 then .error .badMs else .ok (.spiMWrite1 (spiMReg a) b)
    | _ :: _ :: _ => if a.getLsbD 6 then .ok (.spiMWriteB (spiMReg a) rest) else .error .badMs

/-- The instruction whose frame stands on the wire. Which table row a byte belongs to depends on the
line it stands on, so a frame names its line (assumption log 5). -/
def decodeFrame : WireFrame → Except DecodeError Instr
  | .spi _ [] => .error .emptyFrame
  | .spi .ag (a :: rest) => decodeSpiAg a rest
  | .spi .m (a :: rest) => decodeSpiM a rest
  | .i2cWrite (reg :: b :: bs) => .ok (.i2cAgPtr reg (.write (b :: bs)))
  | .i2cWrite _ => .error .emptyFrame
  | .i2cWriteRead [reg] n => if n = 0 then .error .emptyFrame else .ok (.i2cAgPtr reg (.read n))
  | .i2cWriteRead _ _ => .error .badPointer

/-- The instruction that a request asks for. -/
def decode : Request → Except DecodeError Instr
  | .command w p => decodeCommand w p
  | .frame f => decodeFrame f

/-! ### The encoder -/

/-- The command word of R90 and R91, as spec/opcode_table.json lists it. -/
def Cmd.word : Cmd → Byte
  | .cfgXl => 0x10
  | .cfgG => 0x11
  | .cfgM => 0x12
  | .enXl => 0x20
  | .enG => 0x21
  | .enM => 0x22
  | .rdXl => 0x30
  | .rdG => 0x31
  | .rdM => 0x32
  | .rdT => 0x33
  | .rdrawXl => 0x40
  | .rdrawG => 0x41
  | .rdrawM => 0x42
  | .rdrawT => 0x43
  | .twrAg => 0x50
  | .twrM => 0x51
  | .trdAg => 0x60
  | .trdM => 0x61
  | .encXl => 0x70
  | .encG => 0x71
  | .encM => 0x72
  | .sensXl => 0x80
  | .sensG => 0x81
  | .sensM => 0x82
  | .convXl => 0x90
  | .convG => 0x91
  | .convM => 0x92
  | .tconv => 0xA0

/-- `abyte_AG(rw, reg) = (rw << 7) | reg[6:0]` (R81). -/
def abyteAg (rw : BitVec 1) (reg : Byte) : Byte := (rw.setWidth 8 <<< 7) ||| (reg &&& 0x7F)

/-- `abyte_M(rw, ms, reg) = (rw << 7) | (ms << 6) | reg[5:0]` (R82). -/
def abyteM (rw ms : BitVec 1) (reg : Byte) : Byte :=
  (rw.setWidth 8 <<< 7) ||| (ms.setWidth 8 <<< 6) ||| (reg &&& 0x3F)

/-- `ms = 1` if and only if the operation moves more than one data byte (R83). -/
def msBit (n : Nat) : BitVec 1 := if 1 < n then 1 else 0

/-- The address byte of a serial operation of `n` data bytes on device `d` (R81 to R83). -/
def abyte (rw : BitVec 1) (d : Dev) (reg : Byte) (n : Nat) : Byte :=
  match d with
  | .ag => abyteAg rw reg
  | .m => abyteM rw (msBit n) reg

/-- `zeros(n)` (00_scope.md R11). -/
def zeros (n : Nat) : List Byte := List.replicate n 0

/-- The `out` bytes of a serial write (R84). -/
def spiWriteOut (d : Dev) (reg : Byte) (data : List Byte) : List Byte :=
  abyte 0 d reg data.length :: data

/-- The `out` bytes of a serial read (R85). -/
def spiReadOut (d : Dev) (reg : Byte) (n : Nat) : List Byte := abyte 1 d reg n :: zeros n

/-- A request that asks for the instruction: its command word and payload, or its frame. -/
def encode : Instr → Request
  | .cfgXl a => .command Cmd.cfgXl.word (.accel a)
  | .cfgG g => .command Cmd.cfgG.word (.gyro g)
  | .cfgM m => .command Cmd.cfgM.word (.mag m)
  | .enXl => .command Cmd.enXl.word .none
  | .enG => .command Cmd.enG.word .none
  | .enM => .command Cmd.enM.word .none
  | .rdXl => .command Cmd.rdXl.word .none
  | .rdG => .command Cmd.rdG.word .none
  | .rdM => .command Cmd.rdM.word .none
  | .rdT => .command Cmd.rdT.word .none
  | .rdrawXl => .command Cmd.rdrawXl.word .none
  | .rdrawG => .command Cmd.rdrawG.word .none
  | .rdrawM => .command Cmd.rdrawM.word .none
  | .rdrawT => .command Cmd.rdrawT.word .none
  | .twrAg reg data => .command Cmd.twrAg.word (.write reg data)
  | .twrM reg data => .command Cmd.twrM.word (.write reg data)
  | .trdAg reg n => .command Cmd.trdAg.word (.read reg n)
  | .trdM reg n => .command Cmd.trdM.word (.read reg n)
  | .encXl a => .command Cmd.encXl.word (.accel a)
  | .encG g => .command Cmd.encG.word (.gyro g)
  | .encM m => .command Cmd.encM.word (.mag m)
  | .sensXl k => .command Cmd.sensXl.word (.accelScale k)
  | .sensG k => .command Cmd.sensG.word (.gyroScale k)
  | .sensM k => .command Cmd.sensM.word (.magScale k)
  | .convXl k x y z => .command Cmd.convXl.word (.accelRaw k x y z)
  | .convG k x y z => .command Cmd.convG.word (.gyroRaw k x y z)
  | .convM k x y z => .command Cmd.convM.word (.magRaw k x y z)
  | .tconv raw => .command Cmd.tconv.word (.raw raw)
  | .spiAgWrite reg data => .frame (.spi .ag (spiWriteOut .ag reg data))
  | .spiAgRead reg n => .frame (.spi .ag (spiReadOut .ag reg n))
  | .spiMWrite1 reg b => .frame (.spi .m (spiWriteOut .m reg [b]))
  | .spiMWriteB reg data => .frame (.spi .m (spiWriteOut .m reg data))
  | .spiMRead1 reg => .frame (.spi .m (spiReadOut .m reg 1))
  | .spiMReadB reg n => .frame (.spi .m (spiReadOut .m reg n))
  | .i2cAgPtr reg (.write data) => .frame (.i2cWrite (reg :: data))
  | .i2cAgPtr reg (.read n) => .frame (.i2cWriteRead [reg] n)

/-! ### Words of the opcode table -/

/-- The payload that stands for operand words of zeros: every settings field and scale at its code 0,
every number 0, and the least admitted byte count 1. Payloads have no bits (R92), so this is the
model's choice (assumption log 6). -/
def zeroPayload : Cmd → Payload
  | .cfgXl | .encXl =>
    .accel ⟨false, false, false, .powerDown, .g2, .byOdr, .hz408, false, .odrDiv50⟩
  | .cfgG | .encG =>
    .gyro ⟨false, false, false, .powerDown, .dps245, .bw0, .path0, .path0, false, false, .c0⟩
  | .cfgM | .encM => .mag ⟨.hz0_625, false, .lowPower, .lowPower, .g4, false, .continuous⟩
  | .enXl | .enG | .enM | .rdXl | .rdG | .rdM | .rdT => .none
  | .rdrawXl | .rdrawG | .rdrawM | .rdrawT => .none
  | .twrAg | .twrM => .write 0 [0]
  | .trdAg | .trdM => .read 0 1
  | .sensXl => .accelScale .g2
  | .sensG => .gyroScale .dps245
  | .sensM => .magScale .g4
  | .convXl => .accelRaw .g2 0 0 0
  | .convG => .gyroRaw .dps245 0 0 0
  | .convM => .magRaw .g4 0 0 0
  | .tconv => .raw 0

/-- The request that a word of the opcode table stands for: that command word with its zero payload,
and with no payload where the word is reserved. -/
def tableRequest (w : Byte) : Request :=
  .command w (match decodeWord w with
    | some c => zeroPayload c
    | none => .none)

/-- The instruction the decoder reads from a word of `nbits` bits. A command word is always one byte
(R96), so any other width, and any bit above it, is no command. -/
def decodeTableWord (nbits w : Nat) : Option Instr :=
  if nbits = 8 ∧ w < 256 then
    match decode (tableRequest (BitVec.ofNat 8 w)) with
    | .ok i => some i
    | .error _ => none
  else none

end Sys2Proof
end

