-- ==== Sys2Proof/Machine/Params.lean ====
section
/-! DEFINITION. The default parameters of 00_scope.md R6: the register map of 20_memory.md R55 and the
sensitivities of 42_unit_conversion.md R221. Most values are the spec's general knowledge (assumption
log 11). -/

namespace Sys2Proof.Machine

/-- The default `REGMAP` (R55). -/
def defaultRegMap : RegMap where
  ctrlReg1G := 0x10
  ctrlReg2G := 0x11
  ctrlReg3G := 0x12
  outTempL := 0x15
  outXLG := 0x18
  ctrlReg4 := 0x1E
  ctrlReg5Xl := 0x1F
  ctrlReg6Xl := 0x20
  ctrlReg7Xl := 0x21
  ctrlReg8 := 0x22
  outXLXl := 0x28
  ctrlReg1M := 0x20
  ctrlReg2M := 0x21
  ctrlReg3M := 0x22
  ctrlReg4M := 0x23
  outXLM := 0x28

/-- The default `SENS` (R221). -/
def defaultSens : SensTable where
  xlG2 := 0x387FDA40
  xlG4 := 0x38FFDA40
  xlG8 := 0x397FDA40
  xlG16 := 0x3A3FE3B0
  gDps245 := 0x3C0F5C29
  gDps500 := 0x3C8F5C29
  gDps2000 := 0x3D8F5C29
  mG4 := 0x3912CCF7
  mG8 := 0x39980B24
  mG12 := 0x39E1719F
  mG16 := 0x3A180B24

/-- The defaults of R6 for a block of the given kind: `AG_ADDR = 0x6B`, `M_ADDR = 0x1E`,
`MAX_BURST = 32`, `TEMP_SCALE = 16.0`, `TEMP_OFFSET = 25.0`, `MAG_SIM = 0`. -/
def defaultCfg (kind : BusKind) : Cfg where
  kind := kind
  agAddr := 0x6B
  mAddr := 0x1E
  maxBurst := 32
  tempScale := 0x41800000
  tempOffset := 0x41C80000
  magSim := 0
  regmap := defaultRegMap
  sens := defaultSens

end Sys2Proof.Machine
end

