-- ==== Sys2Proof/Machine/State.lean ====
section
/-! DEFINITION. The architectural state (10_state.md R22 to R35), the results of a command
(00_scope.md R14), the bus events (R32), and the state after construction (R35, R350). -/

namespace Sys2Proof.Machine

/-- The level of a chip-select output. `low` is asserted (R24). -/
inductive Level where
  | high
  | low
deriving DecidableEq, Repr, Inhabited

/-- The lifecycle of a sensor (R26). -/
inductive DriverState where
  | unconfigured
  | configured
  | enabled
deriving DecidableEq, Repr, Inhabited

/-! ### Results -/

/-- The operation a `BusError` names (60_exceptions.md R311). -/
inductive BusOp where
  | read
  | write
deriving DecidableEq, Repr

/-- The commands that a `SequenceError` can name as attempted (R313). -/
inductive SeqCmd where
  | en (s : Sensor)
  | rd (s : Sensor)
  | rdraw (s : Sensor)
deriving DecidableEq, Repr

/-- The two error kinds (R310). -/
inductive Err where
  | busError (op : BusOp) (device : Dev) (register : Byte)
  | sequenceError (attempted : SeqCmd) (required : DriverState)
deriving DecidableEq, Repr

/-- The refusal reasons, a closed list (R317). -/
inductive RefuseReason where
  | reservedCommand
  | operandOutOfRange
  | unimplemented
deriving DecidableEq, Repr

/-- The class of an encoded register (41_settings_encoder.md R152). -/
inductive RegClass where
  | control
  | enable
deriving DecidableEq, Repr

/-- An entry of `to_register_bits` (R152). -/
structure RegEntry where
  reg : Byte
  value : Byte
  cls : RegClass
deriving DecidableEq, Repr

/-- A RawSample triple (00_scope.md R15). -/
structure Raw3 where
  x : I16
  y : I16
  z : I16
deriving DecidableEq, Repr

/-- A PhysicalSample triple (R15). -/
structure Phys3 where
  x : F32
  y : F32
  z : F32
deriving DecidableEq, Repr

/-- The value of a command that returns `Ok` (R14). -/
inductive Value where
  | unit
  | bytes (bs : List Byte)
  | entries (es : List RegEntry)
  | raw (r : I16)
  | raw3 (r : Raw3)
  | phys (p : F32)
  | phys3 (p : Phys3)
deriving DecidableEq, Repr

/-- The outcome of a command (10_state.md R31). -/
inductive Reply where
  | ok (v : Value)
  | err (e : Err)
  | refused (r : RefuseReason)
deriving DecidableEq, Repr

/-! ### The bus -/

/-- The answer recorded with a bus event (R32). -/
inductive Ans (α : Type) where
  | ok (v : α)
  | fail
deriving DecidableEq, Repr

/-- A bus event (R32). -/
inductive BusEvent where
  | cs (d : Dev) (l : Level)
  | xfer (out : List Byte) (ans : Ans (List Byte))
  | iwr (addr : BusAddr) (out : List Byte) (ans : Ans Unit)
  | iwrrd (addr : BusAddr) (out : List Byte) (n : Nat) (ans : Ans (List Byte))
deriving DecidableEq, Repr

/-- A transfer primitive that has been called (00_scope.md R13). -/
inductive BusCall where
  | xfer (out : List Byte)
  | iwr (addr : BusAddr) (out : List Byte)
  | iwrrd (addr : BusAddr) (out : List Byte) (n : Nat)
deriving DecidableEq, Repr

/-! ### The state -/

/-- The state elements of R35, then the model's own: the command interface (`inbox`, `reply`), a
primitive the oracle has not answered (`waiting`), and the oracle's answers (`answers`, `draws`). -/
structure State where
  /-- R22: the construction arguments; no command writes them. -/
  cfg : Cfg
  /-- R24: the level last driven on `CS_AG`. -/
  csAg : Level
  /-- R24: the level last driven on `CS_M`. -/
  csM : Level
  /-- R26. -/
  lifeXl : DriverState
  /-- R26. -/
  lifeG : DriverState
  /-- R26. -/
  lifeM : DriverState
  /-- R27. -/
  settingsXl : Option AccelSettings
  /-- R27. -/
  settingsG : Option GyroSettings
  /-- R27. -/
  settingsM : Option MagSettings
  /-- R32: append-only, oldest event first. -/
  hist : List BusEvent
  /-- R34: a sticky mark. -/
  refused : Bool
  /-- MODEL'S OWN (R89): what the caller is going to present, next request first. -/
  inbox : List Request
  /-- MODEL'S OWN (R14, R31): what the last command returned to the caller. No command reads it
  (assumption log 4). -/
  reply : Option Reply
  /-- MODEL'S OWN (R33, R367): the primitive with no answer on which the block hangs. -/
  waiting : Option BusCall
  /-- MODEL'S OWN, FREE VALUE (R33): the oracle's next answers (assumption log 1). -/
  answers : List Draw
  /-- MODEL'S OWN, FREE VALUE (R33): how many answers have been drawn (assumption log 1). -/
  draws : Nat
deriving DecidableEq, Repr

/-- How the machine stops where the spec gives it no further step. -/
inductive Fault where
  /-- Raised by `step` when the block hangs on a primitive that the oracle never answers (R367;
  93_implementation_defined.md part 1, item 2: stuck). Safe: nothing is claimed of such a run
  (assumption log 7). -/
  | hung (call : BusCall)
  /-- Raised by `EN.s`, `RD.s` and `RDRAW.s` in a state that breaks R28 (a configured or enabled sensor
  with no stored settings). No step from a state that keeps R28 reaches one. Safe (assumption log 8). -/
  | settingsAbsent (s : Sensor)
deriving DecidableEq, Repr

/-- What the model gives no meaning. The refusals of 60_exceptions.md R316 are not these: they are next
states in which `refused` is set. -/
inductive Refusal where
  /-- Raised by the dispatch for an instruction with no meaning yet; no arm raises it. Safe. -/
  | notModelled (mnemonic : String)
  /-- Raised by `step` for a request that is no instruction and is not a reserved command word either: a
  payload of another type than the command word fixes (R92), or a malformed wire frame. Safe
  (assumption log 12). -/
  | undecodable (e : DecodeError)
  /-- Raised by the wire-frame rows on a block whose transport is of the other kind (R23). Safe
  (assumption log 5). -/
  | frameOfOtherBus (kind : BusKind)
deriving DecidableEq, Repr

/-- The block right after construction with the given arguments (R35, R350). The model's own fields start
empty (DESIGN CHOICE, assumption log 17). -/
def State.construct (cfg : Cfg) : State where
  cfg := cfg
  csAg := .high
  csM := .high
  lifeXl := .unconfigured
  lifeG := .unconfigured
  lifeM := .unconfigured
  settingsXl := none
  settingsG := none
  settingsM := none
  hist := []
  refused := false
  inbox := []
  reply := none
  waiting := none
  answers := []
  draws := 0

/-- The block after reset: constructed with the default arguments of R6. R6 gives `BUS_KIND` no
default; the model takes `Serial` here (DESIGN CHOICE, assumption log 2). -/
def State.reset : State := State.construct (defaultCfg .serial)

end Sys2Proof.Machine
end

