-- ==== Sys2Proof/Machine/Operands.lean ====
section
/-! DEFINITION. Operand forms and their range checks: the reach of a register address (20_memory.md
R51), the admission of transport operands (30_encoding.md R93), samples from bytes
(42_unit_conversion.md R225, R226), and where each logical sensor lives (10_state.md R30, R281). -/

namespace Sys2Proof.Machine

/-- Which register addresses the framing reaches (R51, R93.2). On the addressed bus the pointer byte
carries any register; that device `M` is not reached there is a check of its own (R93.3). -/
def reachable (kind : BusKind) (d : Dev) (reg : Byte) : Bool :=
  match kind, d with
  | .serial, .ag => decide (reg.toNat ≤ 0x7F)
  | .serial, .m => decide (reg.toNat ≤ 0x3F)
  | .addressed, _ => true

/-- The magnetometer on the addressed bus is unimplemented (40_transport.md R120). -/
def unimplemented (kind : BusKind) (d : Dev) : Bool :=
  match kind, d with
  | .addressed, .m => true
  | _, _ => false

/-- R93 and R129: why a transport command on `n` data bytes is refused, if it is. The order of the two
reasons is that of R129 (DEDUCED, assumption log 18). -/
def refusal? (c : Cfg) (d : Dev) (reg : Byte) (n : Nat) : Option RefuseReason :=
  if n = 0 ∨ c.maxBurst < n then some .operandOutOfRange
  else if !reachable c.kind d reg then some .operandOutOfRange
  else if unimplemented c.kind d then some .unimplemented
  else none

/-- `dev(s)` (10_state.md R30). -/
def devOf : Sensor → Dev
  | .xl => .ag
  | .g => .ag
  | .m => .m

/-- The start register of a sensor's sample (43_driver_facade.md R281). -/
def dataReg (m : RegMap) : Sensor → Byte
  | .xl => m.outXLXl
  | .g => m.outXLG
  | .m => m.outXLM

/-- `raw16([lo, hi])`: the byte at the lower address is the low byte (R57, R225). -/
def raw16 (lo hi : Byte) : I16 := (hi.setWidth 16 <<< 8) ||| lo.setWidth 16

/-- The one sample of a 2-byte burst. Any other length is no sample (R225, R117). -/
def sample1 : List Byte → Option I16
  | [lo, hi] => some (raw16 lo hi)
  | _ => none

/-- `raw3(b)`: X, Y, Z of a 6-byte burst (R58, R226). Any other length is no sample (R226, R117). -/
def sample3 : List Byte → Option Raw3
  | [xl, xh, yl, yh, zl, zh] => some ⟨raw16 xl xh, raw16 yl yh, raw16 zl zh⟩
  | _ => none

/-- The sensor that a settings record is for. -/
def sensorOf : Settings → Sensor
  | .xl _ => .xl
  | .g _ => .g
  | .m _ => .m

end Sys2Proof.Machine
end

