-- ==== Sys2Proof/Machine/Ops.lean ====
section
/-! DEFINITION. The named operations on the state: the chip-selects, the bus primitives and the history
(00_scope.md R13), the register-level primitives of 40_transport.md, the lifecycle and the stored
settings, and how a command ends: with a result, an error, a refusal or a hang.

The block has no traps (60_exceptions.md R319, R322): an error is returned to the caller, saves
nothing, and `finish` is the one place where that happens. -/

namespace Sys2Proof.Machine

/-! ### Accessors -/

/-- `cs[d]` (R24). -/
def State.cs (s : State) : Dev → Level
  | .ag => s.csAg
  | .m => s.csM

/-- `cs[d] <- l`. -/
def State.setCs (s : State) (d : Dev) (l : Level) : State :=
  match d with
  | .ag => { s with csAg := l }
  | .m => { s with csM := l }

/-- `life[s]` (R26). -/
def State.life (s : State) : Sensor → DriverState
  | .xl => s.lifeXl
  | .g => s.lifeG
  | .m => s.lifeM

/-- `life[s] <- v`. -/
def State.setLife (s : State) (k : Sensor) (v : DriverState) : State :=
  match k with
  | .xl => { s with lifeXl := v }
  | .g => { s with lifeG := v }
  | .m => { s with lifeM := v }

/-- `settings[s]` (R27). -/
def State.settings (s : State) : Sensor → Option Settings
  | .xl => s.settingsXl.map .xl
  | .g => s.settingsG.map .g
  | .m => s.settingsM.map .m

/-- `settings[s] <- some r`, for the sensor that `r` is for: a record is replaced whole (R27). -/
def State.store (s : State) (r : Settings) : State :=
  match r with
  | .xl a => { s with settingsXl := some a }
  | .g g => { s with settingsG := some g }
  | .m m => { s with settingsM := some m }

/-- `emit(e)` (00_scope.md R12). -/
def State.emit (s : State) (e : BusEvent) : State := { s with hist := s.hist ++ [e] }

/-- `refuse(reason)` (60_exceptions.md R316): no result, no bus primitive, no other state. -/
def State.refuse (s : State) (r : RefuseReason) : State :=
  { s with refused := true, reply := some (.refused r) }

/-! ### The oracle -/

/-- The oracle's next answer (R33). -/
def State.nextDraw (s : State) : Draw :=
  match s.answers with
  | [] => Config.draw s.draws
  | d :: _ => d

/-- The state once that answer has been drawn. -/
def State.takeDraw (s : State) : State :=
  { s with answers := s.answers.tail, draws := s.draws + 1 }

/-! ### Bus primitives (R13) -/

/-- What a transfer primitive gives: an answer, or none at all (R33). -/
inductive Got (α : Type) where
  | answer (a : Ans α)
  | hang
deriving DecidableEq, Repr

/-- `CsSet(dev, level)`: infallible (92_eei_decisions.md D10; assumption log 14). -/
def csSet (d : Dev) (l : Level) (s : State) : State := (s.setCs d l).emit (.cs d l)

/-- `SpiXfer(out)`. -/
def spiXfer (out : List Byte) (s : State) : Got (List Byte) × State :=
  match s.nextDraw with
  | .ok inb => (.answer (.ok inb), s.takeDraw.emit (.xfer out (.ok inb)))
  | .fail => (.answer .fail, s.takeDraw.emit (.xfer out .fail))
  | .noAnswer => (.hang, { s.takeDraw with waiting := some (.xfer out) })

/-- `I2cWrite(addr, out)`. -/
def i2cWriteCall (addr : BusAddr) (out : List Byte) (s : State) : Got Unit × State :=
  match s.nextDraw with
  | .ok _ => (.answer (.ok ()), s.takeDraw.emit (.iwr addr out (.ok ())))
  | .fail => (.answer .fail, s.takeDraw.emit (.iwr addr out .fail))
  | .noAnswer => (.hang, { s.takeDraw with waiting := some (.iwr addr out) })

/-- `I2cWriteRead(addr, out, n)`: one call, not two (R123). -/
def i2cWriteReadCall (addr : BusAddr) (out : List Byte) (n : Nat) (s : State) :
    Got (List Byte) × State :=
  match s.nextDraw with
  | .ok inb => (.answer (.ok inb), s.takeDraw.emit (.iwrrd addr out n (.ok inb)))
  | .fail => (.answer .fail, s.takeDraw.emit (.iwrrd addr out n .fail))
  | .noAnswer => (.hang, { s.takeDraw with waiting := some (.iwrrd addr out n) })

/-! ### How an operation ends -/

/-- The end of an operation: `Ok(v)`, `Err(e)`, a refusal (00_scope.md R14), or a hang (R367). -/
inductive Res (α : Type) where
  | ok (v : α)
  | err (e : Err)
  | refused (r : RefuseReason)
  | hang
deriving DecidableEq, Repr

/-- The value changed, every other end kept. -/
def Res.map {α β : Type} (f : α → β) : Res α → Res β
  | .ok v => .ok (f v)
  | .err e => .err e
  | .refused r => .refused r
  | .hang => .hang

/-- The end of a transfer whose answer is judged by `judge`; a hang stays one. -/
def Got.judge {α β : Type} (judge : Ans α → Res β) : Got α → Res β
  | .answer a => judge a
  | .hang => .hang

/-- The state with the operation's end handed to the caller: the result or the error as `reply`
(R14, R319), a refusal by `refuse` (R316), and nothing on a hang. -/
def State.finish (s : State) (r : Res Value) : State :=
  match r with
  | .ok v => { s with reply := some (.ok v) }
  | .err e => { s with reply := some (.err e) }
  | .refused q => s.refuse q
  | .hang => { s with reply := none }

/-- The next state of a command that ends as `p`. -/
def finish {α : Type} (f : α → Value) (p : Res α × State) : Host.Outcome State Fault Refusal :=
  .next (p.2.finish (p.1.map f))

/-! ### The register-level primitives -/

/-- The judgement of a serial write: the answer must be as long as what was sent (R112, R117). -/
def judgeSpiWrite (d : Dev) (reg : Byte) (sent : Nat) : Ans (List Byte) → Res Unit
  | .fail => .err (.busError .write d reg)
  | .ok inb => if inb.length = sent then .ok () else .err (.busError .write d reg)

/-- The judgement of a serial read of `n` bytes: received byte 0 is discarded (R115 to R117). -/
def judgeSpiRead (d : Dev) (reg : Byte) (n : Nat) : Ans (List Byte) → Res (List Byte)
  | .fail => .err (.busError .read d reg)
  | .ok inb => if inb.length = n + 1 then .ok (inb.drop 1) else .err (.busError .read d reg)

/-- One serial operation under one chip-select: `CsSet(d, Low)`, one `SpiXfer`, and `CsSet(d, High)`
whatever the answer (R111, R113). A transfer with no answer leaves it there (R367). -/
def underCs (d : Dev) (out : List Byte) (s : State) : Got (List Byte) × State :=
  match spiXfer out (csSet d .low s) with
  | (.answer a, s') => (.answer a, csSet d .high s')
  | (.hang, s') => (.hang, s')

/-- `spi_write` (R112). -/
def spiWrite (d : Dev) (reg : Byte) (data : List Byte) (s : State) : Res Unit × State :=
  let out := spiWriteOut d reg data
  let p := underCs d out s
  (p.1.judge (judgeSpiWrite d reg out.length), p.2)

/-- `spi_read` (R115). -/
def spiRead (d : Dev) (reg : Byte) (n : Nat) (s : State) : Res (List Byte) × State :=
  let p := underCs d (spiReadOut d reg n) s
  (p.1.judge (judgeSpiRead d reg n), p.2)

/-- The judgement of an addressed write (R121, R122). -/
def judgeI2cWrite (reg : Byte) : Ans Unit → Res Unit
  | .fail => .err (.busError .write .ag reg)
  | .ok () => .ok ()

/-- The judgement of an addressed read of `n` bytes (R124, R125). -/
def judgeI2cRead (reg : Byte) (n : Nat) : Ans (List Byte) → Res (List Byte)
  | .fail => .err (.busError .read .ag reg)
  | .ok inb => if inb.length = n then .ok inb else .err (.busError .read .ag reg)

/-- `i2c_write` (R121). -/
def i2cWrite (d : Dev) (reg : Byte) (data : List Byte) (s : State) : Res Unit × State :=
  match d with
  | .m => (.refused .unimplemented, s)
  | .ag =>
    let p := i2cWriteCall s.cfg.agAddr (reg :: data) s
    (p.1.judge (judgeI2cWrite reg), p.2)

/-- `i2c_read` (R124). -/
def i2cRead (d : Dev) (reg : Byte) (n : Nat) (s : State) : Res (List Byte) × State :=
  match d with
  | .m => (.refused .unimplemented, s)
  | .ag =>
    let p := i2cWriteReadCall s.cfg.agAddr [reg] n s
    (p.1.judge (judgeI2cRead reg n), p.2)

/-- `MemWrite(dev, reg, n, data)` (R110). -/
def memWrite (d : Dev) (reg : Byte) (data : List Byte) (s : State) : Res Unit × State :=
  match s.cfg.kind with
  | .serial => spiWrite d reg data s
  | .addressed => i2cWrite d reg data s

/-- `MemRead(dev, reg, n)` (R110). -/
def memRead (d : Dev) (reg : Byte) (n : Nat) (s : State) : Res (List Byte) × State :=
  match s.cfg.kind with
  | .serial => spiRead d reg n s
  | .addressed => i2cRead d reg n s

/-- One single-byte write per entry, in order; the first that does not succeed ends it (R262). -/
def writeAll (d : Dev) : List RegEntry → State → Res Unit × State
  | [], s => (.ok (), s)
  | e :: es, s =>
    match memWrite d e.reg [e.value] s with
    | (.ok (), s') => writeAll d es s'
    | (r, s') => (r, s')

/-- A read whose bytes are then taken as a sample. `sample` is defined on every answer that `memRead`
passes on (R226); a burst that is no sample would be a bus error (R117). -/
def readSample {α : Type} (d : Dev) (reg : Byte) (n : Nat) (sample : List Byte → Option α)
    (s : State) : Res α × State :=
  match memRead d reg n s with
  | (.ok b, s') =>
    match sample b with
    | some v => (.ok v, s')
    | none => (.err (.busError .read d reg), s')
  | (.err e, s') => (.err e, s')
  | (.refused r, s') => (.refused r, s')
  | (.hang, s') => (.hang, s')

end Sys2Proof.Machine
end

