-- ==== Sys2Proof/Machine/Convert.lean ====
section
/-! DEFINITION. Unit conversion (42_unit_conversion.md): sensitivities, raw to physical, temperature, and
the meanings of `SENS.*`, `CONV.*` and `TCONV`. -/

namespace Sys2Proof.Machine

/-- `SENS[XL][k]` (R221). -/
def sensXl (t : SensTable) : AccelScale → F32
  | .g2 => t.xlG2
  | .g4 => t.xlG4
  | .g8 => t.xlG8
  | .g16 => t.xlG16

/-- `SENS[G][k]` (R221). -/
def sensG (t : SensTable) : GyroScale → F32
  | .dps245 => t.gDps245
  | .dps500 => t.gDps500
  | .dps2000 => t.gDps2000

/-- `SENS[M][k]` (R221). -/
def sensM (t : SensTable) : MagScale → F32
  | .g4 => t.mG4
  | .g8 => t.mG8
  | .g12 => t.mG12
  | .g16 => t.mG16

/-- `sens_of(s, r)`: only the record's scale matters (R222). It is computed when it is used and kept
nowhere (10_state.md R29). -/
def sensOf (t : SensTable) : Settings → F32
  | .xl a => sensXl t a.scale
  | .g g => sensG t g.scale
  | .m m => sensM t m.scale

/-- `phys(raw, S) = fmul(float(raw), S)` (R223). -/
def phys (raw : I16) (sens : F32) : F32 := fmul (float raw) sens

/-- Three independent lanes with one sensitivity (R236). -/
def phys3 (r : Raw3) (sens : F32) : Phys3 := ⟨phys r.x sens, phys r.y sens, phys r.z sens⟩

/-- `temp(raw) = fadd(fdiv(float(raw), cfg.temp_scale), cfg.temp_offset)` (R227). -/
def temp (c : Cfg) (raw : I16) : F32 := fadd (fdiv (float raw) c.tempScale) c.tempOffset

/-- `SENS.XL <scale>` (R229). -/
def execSensXl (k : AccelScale) (s : State) : Host.Outcome State Fault Refusal :=
  finish .phys (.ok (sensXl s.cfg.sens k), s)

/-- `SENS.G <scale>` (R230). -/
def execSensG (k : GyroScale) (s : State) : Host.Outcome State Fault Refusal :=
  finish .phys (.ok (sensG s.cfg.sens k), s)

/-- `SENS.M <scale>` (R231). -/
def execSensM (k : MagScale) (s : State) : Host.Outcome State Fault Refusal :=
  finish .phys (.ok (sensM s.cfg.sens k), s)

/-- `CONV.XL <scale>, (x, y, z)`, in g (R232). -/
def execConvXl (k : AccelScale) (x y z : I16) (s : State) : Host.Outcome State Fault Refusal :=
  finish .phys3 (.ok (phys3 ⟨x, y, z⟩ (sensXl s.cfg.sens k)), s)

/-- `CONV.G <scale>, (x, y, z)`, in degrees per second (R233). -/
def execConvG (k : GyroScale) (x y z : I16) (s : State) : Host.Outcome State Fault Refusal :=
  finish .phys3 (.ok (phys3 ⟨x, y, z⟩ (sensG s.cfg.sens k)), s)

/-- `CONV.M <scale>, (x, y, z)`, in gauss (R234). -/
def execConvM (k : MagScale) (x y z : I16) (s : State) : Host.Outcome State Fault Refusal :=
  finish .phys3 (.ok (phys3 ⟨x, y, z⟩ (sensM s.cfg.sens k)), s)

/-- `TCONV <raw>`, in degC (R235). -/
def execTconv (raw : I16) (s : State) : Host.Outcome State Fault Refusal :=
  finish .phys (.ok (temp s.cfg raw), s)

end Sys2Proof.Machine
end

