-- ==== Sys2Proof/Machine/Encoder.lean ====
section
/-! DEFINITION. The Settings Model (41_settings_encoder.md): default records, field codes, register
bytes, `to_register_bits`, its inverse (R188), and the meanings of `ENC.XL`, `ENC.G` and `ENC.M`. -/

namespace Sys2Proof.Machine

/-! ### Default records -/

/-- R158. -/
def accelDefault : AccelSettings where
  enableX := true
  enableY := true
  enableZ := true
  odr := .hz119
  scale := .g2
  bwSelect := .byOdr
  bandwidth := .hz408
  highRes := false
  hrCutoff := .odrDiv50

/-- R168, R169. -/
def gyroDefault : GyroSettings where
  enableX := true
  enableY := true
  enableZ := true
  odr := .hz119
  scale := .dps245
  bandwidth := .bw0
  intSel := .path0
  outSel := .path0
  lowPower := false
  hpfEnable := false
  hpfCutoff := .c0

/-- R181. -/
def magDefault : MagSettings where
  odr := .hz10
  fastOdr := false
  xyMode := .lowPower
  zMode := .lowPower
  scale := .g4
  lowPower := false
  mode := .continuous

/-! ### Field codes -/

/-- `b(true) = 1`, `b(false) = 0` (R159). -/
def bitCode (b : Bool) : Byte := if b then 1 else 0

/-- ODR_XL (R155). -/
def accelOdrCode : AccelOdr → Byte
  | .powerDown => 0b000
  | .hz10 => 0b001
  | .hz50 => 0b010
  | .hz119 => 0b011
  | .hz238 => 0b100
  | .hz476 => 0b101
  | .hz952 => 0b110

/-- FS_XL (R156). -/
def accelScaleCode : AccelScale → Byte
  | .g2 => 0b00
  | .g16 => 0b01
  | .g4 => 0b10
  | .g8 => 0b11

/-- BW_SCAL_ODR (R157). -/
def accelBwSelectCode : AccelBwSelect → Byte
  | .byOdr => 0
  | .byBwXl => 1

/-- BW_XL (R157). -/
def accelBwCode : AccelBw → Byte
  | .hz408 => 0b00
  | .hz211 => 0b01
  | .hz105 => 0b10
  | .hz50 => 0b11

/-- DCF (R158). -/
def accelHrCutoffCode : AccelHrCutoff → Byte
  | .odrDiv50 => 0b00
  | .odrDiv100 => 0b01
  | .odrDiv9 => 0b10
  | .odrDiv400 => 0b11

/-- ODR_G (R164). -/
def gyroOdrCode : GyroOdr → Byte
  | .powerDown => 0b000
  | .hz14_9 => 0b001
  | .hz59_5 => 0b010
  | .hz119 => 0b011
  | .hz238 => 0b100
  | .hz476 => 0b101
  | .hz952 => 0b110

/-- FS_G (R165). -/
def gyroScaleCode : GyroScale → Byte
  | .dps245 => 0b00
  | .dps500 => 0b01
  | .dps2000 => 0b11

/-- BW_G (R166). -/
def gyroBwCode : GyroBw → Byte
  | .bw0 => 0b00
  | .bw1 => 0b01
  | .bw2 => 0b10
  | .bw3 => 0b11

/-- HPCF_G (R167). -/
def gyroHpcfCode : GyroHpcf → Byte
  | .c0 => 0b0000
  | .c1 => 0b0001
  | .c2 => 0b0010
  | .c3 => 0b0011
  | .c4 => 0b0100
  | .c5 => 0b0101
  | .c6 => 0b0110
  | .c7 => 0b0111
  | .c8 => 0b1000
  | .c9 => 0b1001

/-- INT_SEL and OUT_SEL (R168). -/
def gyroPathCode : GyroPath → Byte
  | .path0 => 0b00
  | .path1 => 0b01
  | .path2 => 0b10
  | .path3 => 0b11

/-- DO (R176). -/
def magOdrCode : MagOdr → Byte
  | .hz0_625 => 0b000
  | .hz1_25 => 0b001
  | .hz2_5 => 0b010
  | .hz5 => 0b011
  | .hz10 => 0b100
  | .hz20 => 0b101
  | .hz40 => 0b110
  | .hz80 => 0b111

/-- OM and OMZ (R178). -/
def magPerfCode : MagPerf → Byte
  | .lowPower => 0b00
  | .medium => 0b01
  | .high => 0b10
  | .ultraHigh => 0b11

/-- FS (R179). -/
def magScaleCode : MagScale → Byte
  | .g4 => 0b00
  | .g8 => 0b01
  | .g12 => 0b10
  | .g16 => 0b11

/-- MD (R180). -/
def magModeCode : MagMode → Byte
  | .continuous => 0b00
  | .single => 0b01
  | .powerDown => 0b11

/-! ### Register bytes -/

/-- CTRL_REG5_XL (R159). -/
def ctrl5Xl (a : AccelSettings) : Byte :=
  (bitCode a.enableZ <<< 5) ||| (bitCode a.enableY <<< 4) ||| (bitCode a.enableX <<< 3)

/-- CTRL_REG6_XL (R160). -/
def ctrl6Xl (a : AccelSettings) : Byte :=
  (accelOdrCode a.odr <<< 5) ||| (accelScaleCode a.scale <<< 3) |||
    (accelBwSelectCode a.bwSelect <<< 2) ||| accelBwCode a.bandwidth

/-- CTRL_REG7_XL (R161). -/
def ctrl7Xl (a : AccelSettings) : Byte :=
  (bitCode a.highRes <<< 7) ||| (accelHrCutoffCode a.hrCutoff <<< 5)

/-- CTRL_REG1_G (R170). -/
def ctrl1G (g : GyroSettings) : Byte :=
  (gyroOdrCode g.odr <<< 5) ||| (gyroScaleCode g.scale <<< 3) ||| gyroBwCode g.bandwidth

/-- CTRL_REG2_G (R171). -/
def ctrl2G (g : GyroSettings) : Byte := (gyroPathCode g.intSel <<< 2) ||| gyroPathCode g.outSel

/-- CTRL_REG3_G (R172). -/
def ctrl3G (g : GyroSettings) : Byte :=
  (bitCode g.lowPower <<< 7) ||| (bitCode g.hpfEnable <<< 6) ||| gyroHpcfCode g.hpfCutoff

/-- CTRL_REG4 (R173). -/
def ctrl4 (g : GyroSettings) : Byte :=
  (bitCode g.enableZ <<< 5) ||| (bitCode g.enableY <<< 4) ||| (bitCode g.enableX <<< 3)

/-- CTRL_REG1_M (R182). -/
def ctrl1M (m : MagSettings) : Byte :=
  (magPerfCode m.xyMode <<< 5) ||| (magOdrCode m.odr <<< 2) ||| (bitCode m.fastOdr <<< 1)

/-- CTRL_REG2_M (R183). -/
def ctrl2M (m : MagSettings) : Byte := magScaleCode m.scale <<< 5

/-- CTRL_REG3_M (R184): bit 2 is `cfg.mag_sim`. -/
def ctrl3M (c : Cfg) (m : MagSettings) : Byte :=
  (bitCode m.lowPower <<< 5) ||| (c.magSim.setWidth 8 <<< 2) ||| magModeCode m.mode

/-- CTRL_REG4_M (R185). -/
def ctrl4M (m : MagSettings) : Byte := magPerfCode m.zMode <<< 2

/-! ### `to_register_bits` -/

/-- R162. -/
def accelRegs (c : Cfg) (a : AccelSettings) : List RegEntry :=
  [⟨c.regmap.ctrlReg6Xl, ctrl6Xl a, .control⟩,
   ⟨c.regmap.ctrlReg7Xl, ctrl7Xl a, .control⟩,
   ⟨c.regmap.ctrlReg5Xl, ctrl5Xl a, .enable⟩]

/-- R174. -/
def gyroRegs (c : Cfg) (g : GyroSettings) : List RegEntry :=
  [⟨c.regmap.ctrlReg1G, ctrl1G g, .control⟩,
   ⟨c.regmap.ctrlReg2G, ctrl2G g, .control⟩,
   ⟨c.regmap.ctrlReg3G, ctrl3G g, .control⟩,
   ⟨c.regmap.ctrlReg4, ctrl4 g, .enable⟩]

/-- R186. -/
def magRegs (c : Cfg) (m : MagSettings) : List RegEntry :=
  [⟨c.regmap.ctrlReg1M, ctrl1M m, .control⟩,
   ⟨c.regmap.ctrlReg2M, ctrl2M m, .control⟩,
   ⟨c.regmap.ctrlReg4M, ctrl4M m, .control⟩,
   ⟨c.regmap.ctrlReg3M, ctrl3M c m, .enable⟩]

/-- `to_register_bits(r)` (R152). With a `REGMAP` that repeats an offset within one sensor, the list has
that offset twice (DESIGN CHOICE, assumption log 20). -/
def toRegisterBits (c : Cfg) : Settings → List RegEntry
  | .xl a => accelRegs c a
  | .g g => gyroRegs c g
  | .m m => magRegs c m

/-- The entries of one class, list order kept (43_driver_facade.md R262). -/
def ofClass (k : RegClass) (es : List RegEntry) : List RegEntry := es.filter (·.cls = k)

/-! ### The inverse of the encoder (R188) -/

/-- The field of `w` bits at bit `lo` of a register byte. -/
def fieldOf (b : Byte) (lo w : Nat) : Nat := b.toNat / 2 ^ lo % 2 ^ w

/-- The `n`-th value of an enumeration listed by ascending code; `none` for a code with no value. -/
def pick {α : Type} (vs : List (Option α)) (n : Nat) : Option α := (vs[n]?).join

/-- A one-bit field read as a boolean. -/
def bitAt (b : Byte) (i : Nat) : Bool := b.getLsbD i

/-- The accelerometer record whose register bytes these are, by the layouts of R159 to R161. -/
def accelOfBytes (r6 r7 r5 : Byte) : Option AccelSettings := do
  let odr ← pick [some .powerDown, some .hz10, some .hz50, some .hz119, some .hz238, some .hz476,
    some .hz952, none] (fieldOf r6 5 3)
  let scale ← pick [some .g2, some .g16, some .g4, some .g8] (fieldOf r6 3 2)
  let bwSelect ← pick [some .byOdr, some .byBwXl] (fieldOf r6 2 1)
  let bandwidth ← pick [some .hz408, some .hz211, some .hz105, some .hz50] (fieldOf r6 0 2)
  let hrCutoff ← pick [some .odrDiv50, some .odrDiv100, some .odrDiv9, some .odrDiv400]
    (fieldOf r7 5 2)
  pure ⟨bitAt r5 3, bitAt r5 4, bitAt r5 5, odr, scale, bwSelect, bandwidth, bitAt r7 7, hrCutoff⟩

/-- INT_SEL and OUT_SEL from a code (R168). -/
def gyroPathOf (n : Nat) : Option GyroPath :=
  pick [some .path0, some .path1, some .path2, some .path3] n

/-- The gyroscope record whose register bytes these are, by the layouts of R170 to R173. -/
def gyroOfBytes (r1 r2 r3 r4 : Byte) : Option GyroSettings := do
  let odr ← pick [some .powerDown, some .hz14_9, some .hz59_5, some .hz119, some .hz238, some .hz476,
    some .hz952, none] (fieldOf r1 5 3)
  let scale ← pick [some .dps245, some .dps500, none, some .dps2000] (fieldOf r1 3 2)
  let bandwidth ← pick [some .bw0, some .bw1, some .bw2, some .bw3] (fieldOf r1 0 2)
  let intSel ← gyroPathOf (fieldOf r2 2 2)
  let outSel ← gyroPathOf (fieldOf r2 0 2)
  let hpfCutoff ← pick [some .c0, some .c1, some .c2, some .c3, some .c4, some .c5, some .c6,
    some .c7, some .c8, some .c9] (fieldOf r3 0 4)
  pure ⟨bitAt r4 3, bitAt r4 4, bitAt r4 5, odr, scale, bandwidth, intSel, outSel, bitAt r3 7,
    bitAt r3 6, hpfCutoff⟩

/-- OM and OMZ from a code (R178). -/
def magPerfOf (n : Nat) : Option MagPerf :=
  pick [some .lowPower, some .medium, some .high, some .ultraHigh] n

/-- The magnetometer record whose register bytes these are, by the layouts of R182 to R185. -/
def magOfBytes (r1 r2 r4 r3 : Byte) : Option MagSettings := do
  let odr ← pick [some .hz0_625, some .hz1_25, some .hz2_5, some .hz5, some .hz10, some .hz20,
    some .hz40, some .hz80] (fieldOf r1 2 3)
  let xyMode ← magPerfOf (fieldOf r1 5 2)
  let zMode ← magPerfOf (fieldOf r4 2 2)
  let scale ← pick [some .g4, some .g8, some .g12, some .g16] (fieldOf r2 5 2)
  let mode ← pick [some .continuous, some .single, none, some .powerDown] (fieldOf r3 0 2)
  pure ⟨odr, bitAt r1 1, xyMode, zMode, scale, bitAt r3 5, mode⟩

/-- The record of sensor `k` that a register list encodes (R188). -/
def ofRegisterBits (k : Sensor) (es : List RegEntry) : Option Settings :=
  match k, es.map (·.value) with
  | .xl, [r6, r7, r5] => (accelOfBytes r6 r7 r5).map .xl
  | .g, [r1, r2, r3, r4] => (gyroOfBytes r1 r2 r3 r4).map .g
  | .m, [r1, r2, r4, r3] => (magOfBytes r1 r2 r4 r3).map .m
  | _, _ => none

/-! ### The encoder commands -/

/-- `ENC.XL <settings>` (R189, R192). -/
def execEncXl (a : AccelSettings) (s : State) : Host.Outcome State Fault Refusal :=
  finish .entries (.ok (toRegisterBits s.cfg (.xl a)), s)

/-- `ENC.G <settings>` (R190, R192). -/
def execEncG (g : GyroSettings) (s : State) : Host.Outcome State Fault Refusal :=
  finish .entries (.ok (toRegisterBits s.cfg (.g g)), s)

/-- `ENC.M <settings>` (R191, R192). -/
def execEncM (m : MagSettings) (s : State) : Host.Outcome State Fault Refusal :=
  finish .entries (.ok (toRegisterBits s.cfg (.m m)), s)

end Sys2Proof.Machine
end

