-- ==== Sys2Proof/Machine/Facade.lean ====
section
/-! DEFINITION. The Driver Facade (43_driver_facade.md): `CFG.*`, `EN.*`, `RD.*` and `RDRAW.*`. Every
command checks for refusal first, then the lifecycle, and only then uses the bus (R261, R318). A register
of `REGMAP` is framed as it stands, with no reach check (assumption log 10). -/

namespace Sys2Proof.Machine

/-- `raise SequenceError(cmd, req)` (00_scope.md R14): returned to the caller, nothing else changed. -/
def raiseSequence (cmd : SeqCmd) (req : DriverState) (s : State) :
    Host.Outcome State Fault Refusal :=
  .next (s.finish (.err (.sequenceError cmd req)))

/-! ### Configure -/

/-- The writes of configure: the `Control` entries, and in `Enabled` the `Enable` entries after them
(R262). -/
def configureWrites (c : Cfg) (life : DriverState) (r : Settings) : List RegEntry :=
  let es := toRegisterBits c r
  if life = .enabled then ofClass .control es ++ ofClass .enable es else ofClass .control es

/-- The state once every write of configure has succeeded: the record is stored, and `life` becomes
`Configured` unless it is `Enabled` (R262). -/
def State.configured (s : State) (r : Settings) : State :=
  let s' := s.store r
  if s.life (sensorOf r) = .enabled then s' else s'.setLife (sensorOf r) .configured

/-- `configure(s, r)` (R262). A failure leaves `life` and `settings` untouched. -/
def configure (r : Settings) (s : State) : Host.Outcome State Fault Refusal :=
  let k := sensorOf r
  if unimplemented s.cfg.kind (devOf k) then .next (s.refuse .unimplemented)
  else
    let p := writeAll (devOf k) (configureWrites s.cfg (s.life k) r) s
    finish (fun _ => .unit) (p.1, match p.1 with
      | .ok _ => p.2.configured r
      | _ => p.2)

/-- `CFG.XL <settings>` (R263). -/
def execCfgXl (a : AccelSettings) (s : State) : Host.Outcome State Fault Refusal :=
  configure (.xl a) s

/-- `CFG.G <settings>` (R264). -/
def execCfgG (g : GyroSettings) (s : State) : Host.Outcome State Fault Refusal :=
  configure (.g g) s

/-- `CFG.M <settings>` (R265). -/
def execCfgM (m : MagSettings) (s : State) : Host.Outcome State Fault Refusal :=
  configure (.m m) s

/-! ### Enable -/

/-- `enable(s)` (R266). A failure leaves `life` untouched. The stored record is present by
10_state.md R28. -/
def enable (k : Sensor) (s : State) : Host.Outcome State Fault Refusal :=
  if unimplemented s.cfg.kind (devOf k) then .next (s.refuse .unimplemented)
  else if s.life k = .unconfigured then raiseSequence (.en k) .configured s
  else
    match s.settings k with
    | none => .fault (.settingsAbsent k)
    | some r =>
      let p := writeAll (devOf k) (ofClass .enable (toRegisterBits s.cfg r)) s
      finish (fun _ => .unit) (p.1, match p.1 with
        | .ok _ => p.2.setLife k .enabled
        | _ => p.2)

/-- `EN.XL` (R267). -/
def execEnXl (s : State) : Host.Outcome State Fault Refusal := enable .xl s

/-- `EN.G` (R268). -/
def execEnG (s : State) : Host.Outcome State Fault Refusal := enable .g s

/-- `EN.M` (R269). -/
def execEnM (s : State) : Host.Outcome State Fault Refusal := enable .m s

/-! ### Read -/

/-- The 6-byte burst of a sensor's sample (R270, R281). -/
def readRaw3 (k : Sensor) (s : State) : Res Raw3 × State :=
  readSample (devOf k) (dataReg s.cfg.regmap k) 6 sample3 s

/-- `read_raw(s)` (R270). -/
def readRaw (k : Sensor) (s : State) : Host.Outcome State Fault Refusal :=
  if unimplemented s.cfg.kind (devOf k) then .next (s.refuse .unimplemented)
  else if s.life k ≠ .enabled then raiseSequence (.rdraw k) .enabled s
  else finish .raw3 (readRaw3 k s)

/-- `read_phys(s)` (R270): the sensitivity is that of the record stored at the time of the read
(R271). The record is present by 10_state.md R28. -/
def readPhys (k : Sensor) (s : State) : Host.Outcome State Fault Refusal :=
  if unimplemented s.cfg.kind (devOf k) then .next (s.refuse .unimplemented)
  else if s.life k ≠ .enabled then raiseSequence (.rd k) .enabled s
  else
    match s.settings k with
    | none => .fault (.settingsAbsent k)
    | some r => finish (fun raw => .phys3 (phys3 raw (sensOf s.cfg.sens r))) (readRaw3 k s)

/-- `read_temp_raw()` (R270): no lifecycle precondition. -/
def readTempRaw (s : State) : Res I16 × State :=
  readSample .ag s.cfg.regmap.outTempL 2 sample1 s

/-- `RD.XL` (R271). -/
def execRdXl (s : State) : Host.Outcome State Fault Refusal := readPhys .xl s

/-- `RD.G` (R272). -/
def execRdG (s : State) : Host.Outcome State Fault Refusal := readPhys .g s

/-- `RD.M` (R273). -/
def execRdM (s : State) : Host.Outcome State Fault Refusal := readPhys .m s

/-- `RD.T` (R274). -/
def execRdT (s : State) : Host.Outcome State Fault Refusal :=
  finish (fun raw => .phys (temp s.cfg raw)) (readTempRaw s)

/-- `RDRAW.XL` (R275). -/
def execRdrawXl (s : State) : Host.Outcome State Fault Refusal := readRaw .xl s

/-- `RDRAW.G` (R276). -/
def execRdrawG (s : State) : Host.Outcome State Fault Refusal := readRaw .g s

/-- `RDRAW.M` (R277). -/
def execRdrawM (s : State) : Host.Outcome State Fault Refusal := readRaw .m s

/-- `RDRAW.T` (R278). -/
def execRdrawT (s : State) : Host.Outcome State Fault Refusal := finish .raw (readTempRaw s)

end Sys2Proof.Machine
end

