-- ==== Sys2Proof/Machine/Transport.lean ====
section
/-! DEFINITION. The four transport commands (40_transport.md R129 to R133). They have no lifecycle
precondition and touch neither `life` nor `settings` (R128). -/

namespace Sys2Proof.Machine

/-- `TWR.d reg, data`: the operand checks, then one `MemWrite` (R129). -/
def transportWrite (d : Dev) (reg : Byte) (data : List Byte) (s : State) :
    Host.Outcome State Fault Refusal :=
  match refusal? s.cfg d reg data.length with
  | some r => .next (s.refuse r)
  | none => finish (fun _ => .unit) (memWrite d reg data s)

/-- `TRD.d reg, n`: the operand checks, then one `MemRead` (R129). -/
def transportRead (d : Dev) (reg : Byte) (n : Nat) (s : State) : Host.Outcome State Fault Refusal :=
  match refusal? s.cfg d reg n with
  | some r => .next (s.refuse r)
  | none => finish .bytes (memRead d reg n s)

/-- `TWR.AG reg, data` (R130). -/
def execTwrAg (reg : Byte) (data : List Byte) (s : State) : Host.Outcome State Fault Refusal :=
  transportWrite .ag reg data s

/-- `TWR.M reg, data` (R131). -/
def execTwrM (reg : Byte) (data : List Byte) (s : State) : Host.Outcome State Fault Refusal :=
  transportWrite .m reg data s

/-- `TRD.AG reg, n` (R132). -/
def execTrdAg (reg : Byte) (n : Nat) (s : State) : Host.Outcome State Fault Refusal :=
  transportRead .ag reg n s

/-- `TRD.M reg, n` (R133). -/
def execTrdM (reg : Byte) (n : Nat) (s : State) : Host.Outcome State Fault Refusal :=
  transportRead .m reg n s

end Sys2Proof.Machine
end

