-- ==== Sys2Proof/Machine/Wire.lean ====
section
/-! DEFINITION. The seven wire-frame rows of spec/opcode_table.json (30_encoding.md R81 to R88): each
frame is one register-level operation of the transport of its bus kind (40_transport.md R110). A block
owns one transport only (10_state.md R23), so a frame of the other bus has no meaning on it. -/

namespace Sys2Proof.Machine

/-- A frame runs on its own kind of bus, with at most `cfg.max_burst` data bytes (R84, R85), and with
the register width and byte count that its row fixes (`fits`). -/
def onBus (kind : BusKind) (fits : Bool) (n : Nat) (s : State)
    (run : Host.Outcome State Fault Refusal) : Host.Outcome State Fault Refusal :=
  if s.cfg.kind ≠ kind then .refused (.frameOfOtherBus s.cfg.kind)
  else if fits && decide (n ≤ s.cfg.maxBurst) then run
  else .next (s.refuse .operandOutOfRange)

/-- A serial write frame (R84, R112). -/
def spiWriteFrame (d : Dev) (fits : Bool) (reg : Byte) (data : List Byte) (s : State) :
    Host.Outcome State Fault Refusal :=
  onBus .serial fits data.length s (finish (fun _ => .unit) (spiWrite d reg data s))

/-- A serial read frame (R85, R115). -/
def spiReadFrame (d : Dev) (fits : Bool) (reg : Byte) (n : Nat) (s : State) :
    Host.Outcome State Fault Refusal :=
  onBus .serial fits n s (finish .bytes (spiRead d reg n s))

/-- `SPI.AG.WRITE` (R81). -/
def execSpiAgWrite (reg : Byte) (data : List Byte) (s : State) : Host.Outcome State Fault Refusal :=
  spiWriteFrame .ag (Instr.spiAgWrite reg data).wf reg data s

/-- `SPI.AG.READ` (R81). -/
def execSpiAgRead (reg : Byte) (n : Nat) (s : State) : Host.Outcome State Fault Refusal :=
  spiReadFrame .ag (Instr.spiAgRead reg n).wf reg n s

/-- `SPI.M.WRITE1`: one data byte, `MS` clear (R82, R83). -/
def execSpiMWrite1 (reg : Byte) (b : Byte) (s : State) : Host.Outcome State Fault Refusal :=
  spiWriteFrame .m (Instr.spiMWrite1 reg b).wf reg [b] s

/-- `SPI.M.WRITEB`: more than one data byte, `MS` set (R82, R83). -/
def execSpiMWriteB (reg : Byte) (data : List Byte) (s : State) : Host.Outcome State Fault Refusal :=
  spiWriteFrame .m (Instr.spiMWriteB reg data).wf reg data s

/-- `SPI.M.READ1`: one data byte, `MS` clear (R82, R83). -/
def execSpiMRead1 (reg : Byte) (s : State) : Host.Outcome State Fault Refusal :=
  spiReadFrame .m (Instr.spiMRead1 reg).wf reg 1 s

/-- `SPI.M.READB`: more than one data byte, `MS` set (R82, R83). -/
def execSpiMReadB (reg : Byte) (n : Nat) (s : State) : Host.Outcome State Fault Refusal :=
  spiReadFrame .m (Instr.spiMReadB reg n).wf reg n s

/-- `I2C.AG.PTR`: the pointer byte, unchanged, with what follows it (R86 to R88). -/
def execI2cAgPtr (reg : Byte) (use : PtrUse) (s : State) : Host.Outcome State Fault Refusal :=
  match use with
  | .write data =>
    onBus .addressed (Instr.i2cAgPtr reg (.write data)).wf data.length s
      (finish (fun _ => .unit) (i2cWrite .ag reg data s))
  | .read n =>
    onBus .addressed (Instr.i2cAgPtr reg (.read n)).wf n s
      (finish .bytes (i2cRead .ag reg n s))

end Sys2Proof.Machine
end

