-- ==== Sys2Proof/Machine/Dispatch.lean ====
section
/-! DEFINITION. The meaning of every instruction: one direct call per constructor of `Instr`. -/

namespace Sys2Proof.Machine

def exec (i : Instr) (s : State) : Host.Outcome State Fault Refusal :=
  match i with
  | .cfgXl a => Sys2Proof.Machine.execCfgXl a s
  | .cfgG g => Sys2Proof.Machine.execCfgG g s
  | .cfgM m => Sys2Proof.Machine.execCfgM m s
  | .enXl => Sys2Proof.Machine.execEnXl s
  | .enG => Sys2Proof.Machine.execEnG s
  | .enM => Sys2Proof.Machine.execEnM s
  | .rdXl => Sys2Proof.Machine.execRdXl s
  | .rdG => Sys2Proof.Machine.execRdG s
  | .rdM => Sys2Proof.Machine.execRdM s
  | .rdT => Sys2Proof.Machine.execRdT s
  | .rdrawXl => Sys2Proof.Machine.execRdrawXl s
  | .rdrawG => Sys2Proof.Machine.execRdrawG s
  | .rdrawM => Sys2Proof.Machine.execRdrawM s
  | .rdrawT => Sys2Proof.Machine.execRdrawT s
  | .twrAg reg data => Sys2Proof.Machine.execTwrAg reg data s
  | .twrM reg data => Sys2Proof.Machine.execTwrM reg data s
  | .trdAg reg n => Sys2Proof.Machine.execTrdAg reg n s
  | .trdM reg n => Sys2Proof.Machine.execTrdM reg n s
  | .encXl a => Sys2Proof.Machine.execEncXl a s
  | .encG g => Sys2Proof.Machine.execEncG g s
  | .encM m => Sys2Proof.Machine.execEncM m s
  | .sensXl k => Sys2Proof.Machine.execSensXl k s
  | .sensG k => Sys2Proof.Machine.execSensG k s
  | .sensM k => Sys2Proof.Machine.execSensM k s
  | .convXl k x y z => Sys2Proof.Machine.execConvXl k x y z s
  | .convG k x y z => Sys2Proof.Machine.execConvG k x y z s
  | .convM k x y z => Sys2Proof.Machine.execConvM k x y z s
  | .tconv raw => Sys2Proof.Machine.execTconv raw s
  -- the wire-frame rows
  | .spiAgWrite reg data => Sys2Proof.Machine.execSpiAgWrite reg data s
  | .spiAgRead reg n => Sys2Proof.Machine.execSpiAgRead reg n s
  | .spiMWrite1 reg b => Sys2Proof.Machine.execSpiMWrite1 reg b s
  | .spiMWriteB reg data => Sys2Proof.Machine.execSpiMWriteB reg data s
  | .spiMRead1 reg => Sys2Proof.Machine.execSpiMRead1 reg s
  | .spiMReadB reg n => Sys2Proof.Machine.execSpiMReadB reg n s
  | .i2cAgPtr reg use => Sys2Proof.Machine.execI2cAgPtr reg use s

end Sys2Proof.Machine
end

