-- ==== Sys2Proof/Machine/Interface.lean ====
section
/-! DEFINITION. The command interface (30_encoding.md R89): taking the next request, what a request that
is no instruction does, and placing a request. -/

namespace Sys2Proof.Machine

/-- The request is taken off the interface (R361: one at a time). -/
def State.take (s : State) (rest : List Request) : State := { s with inbox := rest }

/-- A request that is no instruction: a reserved command word is refused by the block (R94); anything
else cannot be presented to the block at all (R92), and the model stops. -/
def rejectRequest (e : DecodeError) (s : State) : Host.Outcome State Fault Refusal :=
  match e with
  | .reservedCommand => .next (s.refuse .reservedCommand)
  | e => .refused (.undecodable e)

/-- The state in which the caller presents `r` next. -/
def State.present (s : State) (r : Request) : State := { s with inbox := r :: s.inbox }

end Sys2Proof.Machine
end

