-- ==== Sys2Proof/Machine/Step.lean ====
section
/-! DEFINITION. One step: one command, run to its result (70_reset_and_hazards.md R361). -/

namespace Sys2Proof.Machine

/-- The block that hangs on a primitive takes no step (R367). With no request presented the block waits
for one and nothing changes (R351). Otherwise the next request is taken, decoded and run (R89). -/
def step (s : State) : Host.Outcome State Fault Refusal :=
  match s.waiting with
  | some call => .fault (.hung call)
  | none =>
    match s.inbox with
    | [] => .next s
    | r :: rest =>
      match decode r with
      | .ok i => exec i (s.take rest)
      | .error e => rejectRequest e (s.take rest)

/-- The state in which the caller presents the command word `w`, with its zero payload, next. The block
has no program counter and no program memory (10_state.md R21, 20_memory.md R52): the command interface
is where the next command comes from. A word of another width is no command word (R96), and nothing is
presented for it. -/
def State.withFetchWord (s : State) (nbits w : Nat) : State :=
  if nbits = 8 ∧ w < 256 then s.present (tableRequest (BitVec.ofNat 8 w)) else s

end Sys2Proof.Machine
end

