-- ==== Sys2Proof/Machine/Assembler.lean ====
section
/-! DEFINITION. The assembler syntax of 30_encoding.md R97 and the pseudo-instructions of R98, on tokens.
How characters make a token (a number in decimal or in hexadecimal, the comment sign) is left to the
reader of the text (assumption log 13). -/

namespace Sys2Proof.Machine

/-- A token of R97. A mnemonic, a field name or a value name is a `word`. -/
inductive Tok where
  | word (w : String)
  | num (n : Int)
  | comma
  | eq
  | lbrack
  | rbrack
  | lparen
  | rparen
  | lbrace
  | rbrace
deriving DecidableEq, Repr

/-! ### Numbers -/

/-- A `u8` (00_scope.md R8). -/
def byteOf (n : Int) : Option Byte :=
  if 0 ≤ n ∧ n < 256 then some (BitVec.ofInt 8 n) else none

/-- An `i16` (00_scope.md R9). -/
def i16Of (n : Int) : Option I16 :=
  if -32768 ≤ n ∧ n < 32768 then some (BitVec.ofInt 16 n) else none

/-- A byte count. -/
def countOf (n : Int) : Option Nat := if 0 ≤ n then some n.toNat else none

/-! ### Names of field values (41_settings_encoder.md) -/

/-- The value that a name stands for. -/
def named {α : Type} (table : List (String × α)) (w : String) : Option α :=
  (table.find? fun p => p.1 == w).map (·.2)

/-- `true` and `false`. -/
def boolOf : String → Option Bool := named [("true", true), ("false", false)]

/-- R155. -/
def accelOdrOf : String → Option AccelOdr := named [("PowerDown", .powerDown), ("Hz10", .hz10),
  ("Hz50", .hz50), ("Hz119", .hz119), ("Hz238", .hz238), ("Hz476", .hz476), ("Hz952", .hz952)]

/-- R156. -/
def accelScaleOf : String → Option AccelScale :=
  named [("G2", .g2), ("G16", .g16), ("G4", .g4), ("G8", .g8)]

/-- R157. -/
def accelBwSelectOf : String → Option AccelBwSelect := named [("ByOdr", .byOdr), ("ByBwXl", .byBwXl)]

/-- R157. -/
def accelBwOf : String → Option AccelBw :=
  named [("Hz408", .hz408), ("Hz211", .hz211), ("Hz105", .hz105), ("Hz50", .hz50)]

/-- R158. -/
def accelHrCutoffOf : String → Option AccelHrCutoff := named [("OdrDiv50", .odrDiv50),
  ("OdrDiv100", .odrDiv100), ("OdrDiv9", .odrDiv9), ("OdrDiv400", .odrDiv400)]

/-- R164. -/
def gyroOdrOf : String → Option GyroOdr := named [("PowerDown", .powerDown), ("Hz14_9", .hz14_9),
  ("Hz59_5", .hz59_5), ("Hz119", .hz119), ("Hz238", .hz238), ("Hz476", .hz476), ("Hz952", .hz952)]

/-- R165. -/
def gyroScaleOf : String → Option GyroScale :=
  named [("Dps245", .dps245), ("Dps500", .dps500), ("Dps2000", .dps2000)]

/-- R166. -/
def gyroBwOf : String → Option GyroBw :=
  named [("Bw0", .bw0), ("Bw1", .bw1), ("Bw2", .bw2), ("Bw3", .bw3)]

/-- R167. -/
def gyroHpcfOf : String → Option GyroHpcf := named [("C0", .c0), ("C1", .c1), ("C2", .c2), ("C3", .c3),
  ("C4", .c4), ("C5", .c5), ("C6", .c6), ("C7", .c7), ("C8", .c8), ("C9", .c9)]

/-- R168. -/
def gyroPathNamed : String → Option GyroPath :=
  named [("Path0", .path0), ("Path1", .path1), ("Path2", .path2), ("Path3", .path3)]

/-- R176. -/
def magOdrOf : String → Option MagOdr := named [("Hz0_625", .hz0_625), ("Hz1_25", .hz1_25),
  ("Hz2_5", .hz2_5), ("Hz5", .hz5), ("Hz10", .hz10), ("Hz20", .hz20), ("Hz40", .hz40), ("Hz80", .hz80)]

/-- R178. -/
def magPerfNamed : String → Option MagPerf :=
  named [("LowPower", .lowPower), ("Medium", .medium), ("High", .high), ("UltraHigh", .ultraHigh)]

/-- R179. -/
def magScaleOf : String → Option MagScale :=
  named [("G4", .g4), ("G8", .g8), ("G12", .g12), ("G16", .g16)]

/-- R180. -/
def magModeOf : String → Option MagMode :=
  named [("Continuous", .continuous), ("Single", .single), ("PowerDown", .powerDown)]

/-! ### Field-wise replacement (R151) -/

/-- One field of an accelerometer record replaced (R154). -/
def accelField (a : AccelSettings) (field value : String) : Option AccelSettings :=
  match field with
  | "enable_x" => (boolOf value).map fun v => { a with enableX := v }
  | "enable_y" => (boolOf value).map fun v => { a with enableY := v }
  | "enable_z" => (boolOf value).map fun v => { a with enableZ := v }
  | "odr" => (accelOdrOf value).map fun v => { a with odr := v }
  | "scale" => (accelScaleOf value).map fun v => { a with scale := v }
  | "bw_select" => (accelBwSelectOf value).map fun v => { a with bwSelect := v }
  | "bandwidth" => (accelBwOf value).map fun v => { a with bandwidth := v }
  | "high_res" => (boolOf value).map fun v => { a with highRes := v }
  | "hr_cutoff" => (accelHrCutoffOf value).map fun v => { a with hrCutoff := v }
  | _ => none

/-- One field of a gyroscope record replaced (R163). -/
def gyroField (g : GyroSettings) (field value : String) : Option GyroSettings :=
  match field with
  | "enable_x" => (boolOf value).map fun v => { g with enableX := v }
  | "enable_y" => (boolOf value).map fun v => { g with enableY := v }
  | "enable_z" => (boolOf value).map fun v => { g with enableZ := v }
  | "odr" => (gyroOdrOf value).map fun v => { g with odr := v }
  | "scale" => (gyroScaleOf value).map fun v => { g with scale := v }
  | "bandwidth" => (gyroBwOf value).map fun v => { g with bandwidth := v }
  | "int_sel" => (gyroPathNamed value).map fun v => { g with intSel := v }
  | "out_sel" => (gyroPathNamed value).map fun v => { g with outSel := v }
  | "low_power" => (boolOf value).map fun v => { g with lowPower := v }
  | "hpf_enable" => (boolOf value).map fun v => { g with hpfEnable := v }
  | "hpf_cutoff" => (gyroHpcfOf value).map fun v => { g with hpfCutoff := v }
  | _ => none

/-- One field of a magnetometer record replaced (R175). -/
def magField (m : MagSettings) (field value : String) : Option MagSettings :=
  match field with
  | "odr" => (magOdrOf value).map fun v => { m with odr := v }
  | "fast_odr" => (boolOf value).map fun v => { m with fastOdr := v }
  | "xy_mode" => (magPerfNamed value).map fun v => { m with xyMode := v }
  | "z_mode" => (magPerfNamed value).map fun v => { m with zMode := v }
  | "scale" => (magScaleOf value).map fun v => { m with scale := v }
  | "low_power" => (boolOf value).map fun v => { m with lowPower := v }
  | "mode" => (magModeOf value).map fun v => { m with mode := v }
  | _ => none

/-- The fields of a braces form, one after another, up to the closing brace (R97, R151). DESIGN CHOICE,
assumption log 19, unsafe: a form that names one field twice is accepted, and the last value wins. -/
def replaceFields {α : Type} (field : α → String → String → Option α) : α → List Tok → Option α
  | a, [.word f, .eq, .word v, .rbrace] => field a f v
  | a, .word f :: .eq :: .word v :: .comma :: rest =>
    match field a f v with
    | some a' => replaceFields field a' rest
    | none => none
  | _, _ => none

/-- `<settings>`: `default`, or the braces form, whose omitted fields take their defaults (R97). -/
def settingsArg {α : Type} (field : α → String → String → Option α) (dflt : α) :
    List Tok → Option α
  | [.word "default"] => some dflt
  | [.lbrace, .rbrace] => some dflt
  | .lbrace :: rest => replaceFields field dflt rest
  | _ => none

/-! ### The other operands -/

/-- The bytes after an opening bracket, up to the closing one. -/
def bytesArg : List Tok → Option (List Byte)
  | [.num n, .rbrack] => (byteOf n).map ([·])
  | .num n :: .comma :: rest =>
    match byteOf n, bytesArg rest with
    | some b, some bs => some (b :: bs)
    | _, _ => none
  | _ => none

/-- `<reg>, [<b0>, ...]`. The list may be empty (95_test_vectors.md section 2.1). -/
def writeArgs (mk : Byte → List Byte → Instr) : List Tok → Option Instr
  | [.num r, .comma, .lbrack, .rbrack] => (byteOf r).map (mk · [])
  | .num r :: .comma :: .lbrack :: rest =>
    match byteOf r, bytesArg rest with
    | some reg, some bs => some (mk reg bs)
    | _, _ => none
  | _ => none

/-- `<reg>, <n>`. -/
def readArgs (mk : Byte → Nat → Instr) : List Tok → Option Instr
  | [.num r, .comma, .num n] =>
    match byteOf r, countOf n with
    | some reg, some k => some (mk reg k)
    | _, _ => none
  | _ => none

/-- `<ScaleValue>`. -/
def scaleArg {α : Type} (scale : String → Option α) (mk : α → Instr) : List Tok → Option Instr
  | [.word k] => (scale k).map mk
  | _ => none

/-- `<ScaleValue>, (<x>, <y>, <z>)`. -/
def convArgs {α : Type} (scale : String → Option α) (mk : α → I16 → I16 → I16 → Instr) :
    List Tok → Option Instr
  | [.word k, .comma, .lparen, .num x, .comma, .num y, .comma, .num z, .rparen] =>
    match scale k, i16Of x, i16Of y, i16Of z with
    | some v, some a, some b, some c => some (mk v a b c)
    | _, _, _, _ => none
  | _ => none

/-- No operand. -/
def noArgs (i : Instr) : List Tok → Option Instr
  | [] => some i
  | _ => none

/-- One command line of R97. -/
def command (mnemonic : String) (args : List Tok) : Option Instr :=
  match mnemonic with
  | "CFG.XL" => (settingsArg accelField accelDefault args).map .cfgXl
  | "CFG.G" => (settingsArg gyroField gyroDefault args).map .cfgG
  | "CFG.M" => (settingsArg magField magDefault args).map .cfgM
  | "EN.XL" => noArgs .enXl args
  | "EN.G" => noArgs .enG args
  | "EN.M" => noArgs .enM args
  | "RD.XL" => noArgs .rdXl args
  | "RD.G" => noArgs .rdG args
  | "RD.M" => noArgs .rdM args
  | "RD.T" => noArgs .rdT args
  | "RDRAW.XL" => noArgs .rdrawXl args
  | "RDRAW.G" => noArgs .rdrawG args
  | "RDRAW.M" => noArgs .rdrawM args
  | "RDRAW.T" => noArgs .rdrawT args
  | "TWR.AG" => writeArgs .twrAg args
  | "TWR.M" => writeArgs .twrM args
  | "TRD.AG" => readArgs .trdAg args
  | "TRD.M" => readArgs .trdM args
  | "ENC.XL" => (settingsArg accelField accelDefault args).map .encXl
  | "ENC.G" => (settingsArg gyroField gyroDefault args).map .encG
  | "ENC.M" => (settingsArg magField magDefault args).map .encM
  | "SENS.XL" => scaleArg accelScaleOf .sensXl args
  | "SENS.G" => scaleArg gyroScaleOf .sensG args
  | "SENS.M" => scaleArg magScaleOf .sensM args
  | "CONV.XL" => convArgs accelScaleOf .convXl args
  | "CONV.G" => convArgs gyroScaleOf .convG args
  | "CONV.M" => convArgs magScaleOf .convM args
  | "TCONV" =>
    match args with
    | [.num n] => (i16Of n).map .tconv
    | _ => none
  | _ => none

/-! ### Pseudo-instructions (R98) -/

/-- A pseudo-instruction. It has no command word of its own. `CFG.s default` is the remaining one of
R98; `settingsArg` reads it. -/
inductive Pseudo where
  | init (s : Sensor)
  | rd6 (d : Dev) (reg : Byte)
deriving DecidableEq, Repr

/-- The commands that a pseudo-instruction stands for. -/
def Pseudo.expand : Pseudo → List Instr
  | .init .xl => [.cfgXl accelDefault, .enXl]
  | .init .g => [.cfgG gyroDefault, .enG]
  | .init .m => [.cfgM magDefault, .enM]
  | .rd6 .ag reg => [.trdAg reg 6]
  | .rd6 .m reg => [.trdM reg 6]

/-- One line: a command, or a pseudo-instruction with its expansion. -/
def assemble : List Tok → Option (List Instr)
  | [.word "INIT.XL"] => some (Pseudo.init .xl).expand
  | [.word "INIT.G"] => some (Pseudo.init .g).expand
  | [.word "INIT.M"] => some (Pseudo.init .m).expand
  | [.word "RD6.AG", .num r] => (byteOf r).map fun reg => (Pseudo.rd6 .ag reg).expand
  | [.word "RD6.M", .num r] => (byteOf r).map fun reg => (Pseudo.rd6 .m reg).expand
  | .word w :: args => (command w args).map ([·])
  | _ => none

end Sys2Proof.Machine
end

