-- ==== Sys2Proof/Machine/Flags.lean ====
section
/-! DEFINITION. The block has no flags and no condition codes (10_state.md R31). What stands in their
place is the status of a command's result (60_exceptions.md R314). -/

namespace Sys2Proof.Machine

/-- The status code of a result: `0` for `Ok`, `1` for `BusError`, `2` for `SequenceError`. A refusal
is not a result and has none (R314). -/
def status : Reply → Option Nat
  | .ok _ => some 0
  | .err (.busError _ _ _) => some 1
  | .err (.sequenceError _ _) => some 2
  | .refused _ => none

/-- The place of a lifecycle value in the order of 10_state.md R26. -/
def lifeRank : DriverState → Nat
  | .unconfigured => 0
  | .configured => 1
  | .enabled => 2

end Sys2Proof.Machine
end

