-- ==== Sys2Proof/Safety.lean ====
section
/-! DEFINITION. The terms that claims use: when a state is a good one, which bus traffic is whole, what
the oracle answers next, which instructions belong together, and the exact value of a binary32. -/

namespace Sys2Proof.Machine

/-! ### Good states -/

/-- R28: a sensor is `Unconfigured` exactly when it has no stored settings. -/
def State.SlotsAgree (s : State) : Prop :=
  ∀ k : Sensor, s.life k = .unconfigured ↔ s.settings k = none

/-- R25: both chip-selects are high. -/
def State.CsIdle (s : State) : Prop := s.csAg = .high ∧ s.csM = .high

/-- The invariant of the block: R28 always; R25 unless the block hangs inside a command (R37, R367); and
on the addressed bus the chip-selects are never moved at all (R24). -/
def State.Inv (s : State) : Prop :=
  s.SlotsAgree ∧ (s.waiting = none → s.CsIdle) ∧ (s.cfg.kind = .addressed → s.CsIdle)

/-! ### The oracle's answers -/

/-- The oracle's next answers are `ds`, in order (R33). -/
def State.nextDraws : State → List Draw → Prop
  | _, [] => True
  | s, d :: ds => s.nextDraw = d ∧ s.takeDraw.nextDraws ds

/-- The state after transport operations on device `d` that drew `n` answers and added the events `es`:
a serial operation leaves `cs[d]` high (R111); on the addressed bus the chip-selects are not touched
(R24). -/
def State.busDone (s : State) (d : Dev) (n : Nat) (es : List BusEvent) : State :=
  match s.cfg.kind, d with
  | .serial, .ag =>
    { s with csAg := .high, hist := s.hist ++ es, answers := s.answers.drop n, draws := s.draws + n }
  | .serial, .m =>
    { s with csM := .high, hist := s.hist ++ es, answers := s.answers.drop n, draws := s.draws + n }
  | .addressed, _ =>
    { s with hist := s.hist ++ es, answers := s.answers.drop n, draws := s.draws + n }

/-- That state, with the result `r` returned to the caller. -/
def State.afterBus (s : State) (d : Dev) (n : Nat) (es : List BusEvent) (r : Reply) : State :=
  { s.busDone d n es with reply := some r }

/-! ### Bus traffic -/

/-- The events of a write of `data` at `reg`, answered by `a` (R112, R121): on the serial bus `a` is the
transfer's answer; on the addressed bus only whether it is `Ok` is recorded. -/
def writeEvents (c : Cfg) (d : Dev) (reg : Byte) (data : List Byte) (a : Ans (List Byte)) :
    List BusEvent :=
  match c.kind with
  | .serial => [.cs d .low, .xfer (spiWriteOut d reg data) a, .cs d .high]
  | .addressed =>
    [.iwr c.agAddr (reg :: data) (match a with
      | .ok _ => .ok ()
      | .fail => .fail)]

/-- The events of a read of `n` bytes at `reg`, answered by `a` (R115, R124). -/
def readEvents (c : Cfg) (d : Dev) (reg : Byte) (n : Nat) (a : Ans (List Byte)) : List BusEvent :=
  match c.kind with
  | .serial => [.cs d .low, .xfer (spiReadOut d reg n) a, .cs d .high]
  | .addressed => [.iwrrd c.agAddr [reg] n a]

/-- The events of single-byte writes, each with its answer (R262). -/
def writesEvents (c : Cfg) (d : Dev) (ws : List RegEntry) (inbs : List (List Byte)) :
    List BusEvent :=
  (ws.zip inbs).flatMap fun p => writeEvents c d p.1.reg [p.1.value] (.ok p.2)

/-- The answer of the oracle that a bus event records as `a` (R32, R33). -/
def drawOf : Ans (List Byte) → Draw
  | .ok inb => .ok inb
  | .fail => .fail

/-- The received bytes of a read of `data`: on the serial bus one byte clocked in during the address
byte, `junk`, comes first (R116). -/
def received (c : Cfg) (junk : Byte) (data : List Byte) : List Byte :=
  match c.kind with
  | .serial => junk :: data
  | .addressed => data

/-- The answer `a` to a write of `n` data bytes is a success: on the serial bus it must be as long as
what was sent (R117); on the addressed bus there is nothing to measure (R121). -/
def writeOk (c : Cfg) (n : Nat) : Draw → Bool
  | .ok inb => match c.kind with
    | .serial => decide (inb.length = n + 1)
    | .addressed => true
  | _ => false

/-- The answer to a read of `n` bytes is a success (R115, R124). -/
def readOk (c : Cfg) (n : Nat) : Draw → Bool
  | .ok inb => match c.kind with
    | .serial => decide (inb.length = n + 1)
    | .addressed => decide (inb.length = n)
  | _ => false

/-- The events of one whole transport operation on a block of configuration `c` (R84 to R87, R111). -/
def WholeOp (c : Cfg) (es : List BusEvent) : Prop :=
  ∃ (d : Dev) (reg : Byte) (a : Ans (List Byte)),
    (c.kind = .addressed → d = .ag) ∧
    ((∃ data, data ≠ [] ∧ es = writeEvents c d reg data a) ∨
     (∃ n, n ≠ 0 ∧ es = readEvents c d reg n a))

/-- The events of an operation whose transfer has no answer: on the serial bus its chip-select has gone
low; on the addressed bus there is no event (R37, R367). -/
def OpenOp (c : Cfg) (call : BusCall) (es : List BusEvent) : Prop :=
  (c.kind = .serial ∧ ∃ d out, call = .xfer out ∧ es = [.cs d .low]) ∨
  (c.kind = .addressed ∧ es = [] ∧
    ∃ out, call = .iwr c.agAddr out ∨ ∃ n, call = .iwrrd c.agAddr out n)

/-- The traffic added by one command: whole operations, and an open one at the end exactly when the
block hangs. -/
def Traffic (c : Cfg) (waiting : Option BusCall) (es : List BusEvent) : Prop :=
  ∃ (ops : List (List BusEvent)) (last : List BusEvent),
    es = ops.flatten ++ last ∧ (∀ o ∈ ops, WholeOp c o) ∧
    match waiting with
    | none => last = []
    | some call => OpenOp c call last

/-! ### Groups of instructions -/

/-- `CFG.s` for a record of sensor `s`. -/
def cfgInstr : Settings → Instr
  | .xl a => .cfgXl a
  | .g g => .cfgG g
  | .m m => .cfgM m

/-- `EN.s`. -/
def enInstr : Sensor → Instr
  | .xl => .enXl
  | .g => .enG
  | .m => .enM

/-- `RD.s`. -/
def rdInstr : Sensor → Instr
  | .xl => .rdXl
  | .g => .rdG
  | .m => .rdM

/-- `RDRAW.s`. -/
def rdrawInstr : Sensor → Instr
  | .xl => .rdrawXl
  | .g => .rdrawG
  | .m => .rdrawM

/-- The pure commands (92_eei_decisions.md D35). -/
def isPure : Instr → Bool
  | .encXl _ | .encG _ | .encM _ | .sensXl _ | .sensG _ | .sensM _ => true
  | .convXl _ _ _ _ | .convG _ _ _ _ | .convM _ _ _ _ | .tconv _ => true
  | _ => false

/-- The sensor that a facade command is for (43_driver_facade.md). -/
def sensorNamed : Instr → Option Sensor
  | .cfgXl _ | .enXl | .rdXl | .rdrawXl => some .xl
  | .cfgG _ | .enG | .rdG | .rdrawG => some .g
  | .cfgM _ | .enM | .rdM | .rdrawM => some .m
  | _ => none

/-- The state with the lifecycle and the stored settings of sensor `k` taken from `u`. -/
def State.slotFrom (s u : State) : Sensor → State
  | .xl => { s with lifeXl := u.lifeXl, settingsXl := u.settingsXl }
  | .g => { s with lifeG := u.lifeG, settingsG := u.settingsG }
  | .m => { s with lifeM := u.lifeM, settingsM := u.settingsM }

/-- The sensor whose lifecycle a command can write (R26). -/
def writesLife : Instr → Option Sensor
  | .cfgXl _ | .enXl => some .xl
  | .cfgG _ | .enG => some .g
  | .cfgM _ | .enM => some .m
  | _ => none

/-- The device that an instruction reaches over the bus, if any. -/
def devUsed : Instr → Option Dev
  | .cfgXl _ | .cfgG _ | .enXl | .enG => some .ag
  | .rdXl | .rdG | .rdT | .rdrawXl | .rdrawG | .rdrawT => some .ag
  | .twrAg _ _ | .trdAg _ _ | .spiAgWrite _ _ | .spiAgRead _ _ => some .ag
  | .cfgM _ | .enM | .rdM | .rdrawM => some .m
  | .twrM _ _ | .trdM _ _ => some .m
  | .spiMWrite1 _ _ | .spiMWriteB _ _ | .spiMRead1 _ | .spiMReadB _ _ => some .m
  | .i2cAgPtr _ _ => some .ag
  | _ => none

/-- The bus on which a wire-frame row is a frame (30_encoding.md R81 to R88). -/
def frameKind : Instr → Option BusKind
  | .spiAgWrite _ _ | .spiAgRead _ _ => some .serial
  | .spiMWrite1 _ _ | .spiMWriteB _ _ | .spiMRead1 _ | .spiMReadB _ _ => some .serial
  | .i2cAgPtr _ _ => some .addressed
  | _ => none

/-- How many data bytes a wire-frame row moves. -/
def frameBytes : Instr → Nat
  | .spiAgWrite _ data | .spiMWriteB _ data | .i2cAgPtr _ (.write data) => data.length
  | .spiAgRead _ n | .spiMReadB _ n | .i2cAgPtr _ (.read n) => n
  | .spiMWrite1 _ _ | .spiMRead1 _ => 1
  | _ => 0

/-! ### Exact values of binary32 -/

/-- The exact value of a finite binary32 pattern. -/
def fVal (b : F32) : Option ℚ :=
  match fView b with
  | .fin neg m e => some ((if neg then -1 else 1) * (m : ℚ) * (2 : ℚ) ^ e)
  | _ => none

/-- `r` is `rnd(x)` (R10): a finite binary32 nearest to `x`, and among two nearest ones the one whose
significand is even. -/
def IsRnd (x : ℚ) (r : F32) : Prop :=
  ∃ v, fVal r = some v ∧ ∀ y w, fVal y = some w →
    |v - x| ≤ |w - x| ∧ (w ≠ v → |w - x| = |v - x| → r.getLsbD 0 = false)

end Sys2Proof.Machine
end

