-- ==== Sys2Proof/Certificates/Slice0/Obligations.lean ====
section
/-! DEFINITION. The statements for the provers, from the numbered rules of spec/. -/

open Sys2Proof Sys2Proof.Machine

/-! ### Encoding -/

/-- R90, R91: each command word, with a payload of its type (R92), is its command. The frames of
95_test_vectors.md section 2.1 are their wire-frame rows. -/
def Obligations.WordsAndFramesDecodeByTable : Prop :=
  (∀ a, decode (.command 0x10 (.accel a)) = .ok (.cfgXl a)) ∧
  (∀ g, decode (.command 0x11 (.gyro g)) = .ok (.cfgG g)) ∧
  (∀ m, decode (.command 0x12 (.mag m)) = .ok (.cfgM m)) ∧
  decode (.command 0x20 .none) = .ok .enXl ∧
  decode (.command 0x21 .none) = .ok .enG ∧
  decode (.command 0x22 .none) = .ok .enM ∧
  decode (.command 0x30 .none) = .ok .rdXl ∧
  decode (.command 0x31 .none) = .ok .rdG ∧
  decode (.command 0x32 .none) = .ok .rdM ∧
  decode (.command 0x33 .none) = .ok .rdT ∧
  decode (.command 0x40 .none) = .ok .rdrawXl ∧
  decode (.command 0x41 .none) = .ok .rdrawG ∧
  decode (.command 0x42 .none) = .ok .rdrawM ∧
  decode (.command 0x43 .none) = .ok .rdrawT ∧
  (∀ reg data, decode (.command 0x50 (.write reg data)) = .ok (.twrAg reg data)) ∧
  (∀ reg data, decode (.command 0x51 (.write reg data)) = .ok (.twrM reg data)) ∧
  (∀ reg n, decode (.command 0x60 (.read reg n)) = .ok (.trdAg reg n)) ∧
  (∀ reg n, decode (.command 0x61 (.read reg n)) = .ok (.trdM reg n)) ∧
  (∀ a, decode (.command 0x70 (.accel a)) = .ok (.encXl a)) ∧
  (∀ g, decode (.command 0x71 (.gyro g)) = .ok (.encG g)) ∧
  (∀ m, decode (.command 0x72 (.mag m)) = .ok (.encM m)) ∧
  (∀ k, decode (.command 0x80 (.accelScale k)) = .ok (.sensXl k)) ∧
  (∀ k, decode (.command 0x81 (.gyroScale k)) = .ok (.sensG k)) ∧
  (∀ k, decode (.command 0x82 (.magScale k)) = .ok (.sensM k)) ∧
  (∀ k x y z, decode (.command 0x90 (.accelRaw k x y z)) = .ok (.convXl k x y z)) ∧
  (∀ k x y z, decode (.command 0x91 (.gyroRaw k x y z)) = .ok (.convG k x y z)) ∧
  (∀ k x y z, decode (.command 0x92 (.magRaw k x y z)) = .ok (.convM k x y z)) ∧
  (∀ r, decode (.command 0xA0 (.raw r)) = .ok (.tconv r)) ∧
  decode (.frame (.spi .ag [0x10, 0x60])) = .ok (.spiAgWrite 0x10 [0x60]) ∧
  decode (.frame (.spi .ag [0xA0, 0, 0, 0, 0, 0, 0])) = .ok (.spiAgRead 0x20 6) ∧
  decode (.frame (.spi .m [0x20, 0x10])) = .ok (.spiMWrite1 0x20 0x10) ∧
  decode (.frame (.spi .m [0x60, 0x10, 0x00])) = .ok (.spiMWriteB 0x20 [0x10, 0x00]) ∧
  decode (.frame (.spi .m [0x8F, 0])) = .ok (.spiMRead1 0x0F) ∧
  decode (.frame (.spi .m [0xE8, 0, 0, 0, 0, 0, 0])) = .ok (.spiMReadB 0x28 6) ∧
  decode (.frame (.i2cWriteRead [0x28] 6)) = .ok (.i2cAgPtr 0x28 (.read 6)) ∧
  decode (.frame (.i2cWrite [0x10, 0x60])) = .ok (.i2cAgPtr 0x10 (.write [0x60]))

/-- Decoding the encoding of a well-formed instruction gives it back, with every operand. -/
def Obligations.DecodeOfEncodeGivesInstruction : Prop :=
  ∀ i : Instr, i.wf = true → decode (encode i) = .ok i

/-- What decodes is well formed and is the encoding of what it decodes to: each request has one
meaning. -/
def Obligations.DecodedRequestIsItsEncoding : Prop :=
  ∀ (r : Request) (i : Instr), decode r = .ok i → i.wf = true ∧ encode i = r

/-- R94: a reserved command word is refused, whatever payload stands beside it. That the refusal shows
in `reply` is the model's (assumption log 4). -/
def Obligations.ReservedCommandWordIsRefused : Prop :=
  ∀ (s : State) (w : Byte) (p : Payload) (rest : List Request),
    s.waiting = none → s.inbox = .command w p :: rest →
    (let op := w.toNat / 16
     let tgt := w.toNat % 16
     ¬((op = 1 ∨ op = 2 ∨ op = 7 ∨ op = 8 ∨ op = 9) ∧ tgt ≤ 2 ∨
       (op = 3 ∨ op = 4) ∧ tgt ≤ 3 ∨ (op = 5 ∨ op = 6) ∧ tgt ≤ 1 ∨ op = 10 ∧ tgt = 0)) →
    step s = .next { s with inbox := rest, refused := true,
                            reply := some (.refused .reservedCommand) }

/-- R21, R89, R361: a step runs the next request's instruction on the state without that request. The
second clause is the model's choice (assumption log 6): `withFetchWord` presents a table word, with a
payload of zeros, in front of `inbox`, so that it is the very next to run. -/
def Obligations.StepRunsDecodedInstruction : Prop :=
  (∀ (s : State) (r : Request) (rest : List Request) (i : Instr),
    s.waiting = none → s.inbox = r :: rest → decode r = .ok i →
    step s = exec i { s with inbox := rest }) ∧
  (∀ (s : State) (w : Nat) (i : Instr),
    s.waiting = none → decodeTableWord 8 w = some i → step (s.withFetchWord 8 w) = exec i s)

/-- R367: a block that hangs on a primitive takes no step; the fault is the model's form of it (assumption
log 7). That a block with no request presented stays as it is, is the model's choice (assumption
log 3). -/
def Obligations.HungBlockStopsAndIdleBlockWaits : Prop :=
  (∀ (s : State) (c : BusCall), s.waiting = some c → step s = .fault (.hung c)) ∧
  (∀ s : State, s.waiting = none → s.inbox = [] → step s = .next s)

/-- R81, R82, R83: the serial address byte, and when `MS` is set. -/
def Obligations.SerialAddressByteByRule : Prop :=
  ∀ (rw : BitVec 1) (reg : Byte) (n : Nat),
    (reg.toNat ≤ 0x7F → (abyte rw .ag reg n).toNat = 128 * rw.toNat + reg.toNat) ∧
    (reg.toNat ≤ 0x3F →
      (abyte rw .m reg n).toNat = 128 * rw.toNat + (if 1 < n then 64 else 0) + reg.toNat)

/-! ### Settings encoder -/

/-- R155 to R158, R164 to R168, R176 to R180: the code of every enumeration value. -/
def Obligations.FieldCodesByTable : Prop :=
  [AccelOdr.powerDown, .hz10, .hz50, .hz119, .hz238, .hz476, .hz952].map accelOdrCode =
    [0, 1, 2, 3, 4, 5, 6] ∧
  [AccelScale.g2, .g16, .g4, .g8].map accelScaleCode = [0, 1, 2, 3] ∧
  [AccelBwSelect.byOdr, .byBwXl].map accelBwSelectCode = [0, 1] ∧
  [AccelBw.hz408, .hz211, .hz105, .hz50].map accelBwCode = [0, 1, 2, 3] ∧
  [AccelHrCutoff.odrDiv50, .odrDiv100, .odrDiv9, .odrDiv400].map accelHrCutoffCode =
    [0, 1, 2, 3] ∧
  [GyroOdr.powerDown, .hz14_9, .hz59_5, .hz119, .hz238, .hz476, .hz952].map gyroOdrCode =
    [0, 1, 2, 3, 4, 5, 6] ∧
  [GyroScale.dps245, .dps500, .dps2000].map gyroScaleCode = [0, 1, 3] ∧
  [GyroBw.bw0, .bw1, .bw2, .bw3].map gyroBwCode = [0, 1, 2, 3] ∧
  [GyroHpcf.c0, .c1, .c2, .c3, .c4, .c5, .c6, .c7, .c8, .c9].map gyroHpcfCode =
    [0, 1, 2, 3, 4, 5, 6, 7, 8, 9] ∧
  [GyroPath.path0, .path1, .path2, .path3].map gyroPathCode = [0, 1, 2, 3] ∧
  [MagOdr.hz0_625, .hz1_25, .hz2_5, .hz5, .hz10, .hz20, .hz40, .hz80].map magOdrCode =
    [0, 1, 2, 3, 4, 5, 6, 7] ∧
  [MagPerf.lowPower, .medium, .high, .ultraHigh].map magPerfCode = [0, 1, 2, 3] ∧
  [MagScale.g4, .g8, .g12, .g16].map magScaleCode = [0, 1, 2, 3] ∧
  [MagMode.continuous, .single, .powerDown].map magModeCode = [0, 1, 3]

/-- R159 to R162, R192: `ENC.XL` answers the three register bytes, field by field, and changes nothing
else. -/
def Obligations.EncXlAnswersRegisterBytes : Prop :=
  ∀ (a : AccelSettings) (s : State), exec (.encXl a) s = .next { s with reply := some (.ok (.entries
    [⟨s.cfg.regmap.ctrlReg6Xl, BitVec.ofNat 8 (32 * (accelOdrCode a.odr).toNat +
        8 * (accelScaleCode a.scale).toNat + 4 * (accelBwSelectCode a.bwSelect).toNat +
        (accelBwCode a.bandwidth).toNat), .control⟩,
     ⟨s.cfg.regmap.ctrlReg7Xl, BitVec.ofNat 8 (128 * a.highRes.toNat +
        32 * (accelHrCutoffCode a.hrCutoff).toNat), .control⟩,
     ⟨s.cfg.regmap.ctrlReg5Xl, BitVec.ofNat 8 (32 * a.enableZ.toNat + 16 * a.enableY.toNat +
        8 * a.enableX.toNat), .enable⟩])) }

/-- R170 to R174, R192: `ENC.G` answers the four register bytes, field by field, and changes nothing
else. -/
def Obligations.EncGAnswersRegisterBytes : Prop :=
  ∀ (g : GyroSettings) (s : State), exec (.encG g) s = .next { s with reply := some (.ok (.entries
    [⟨s.cfg.regmap.ctrlReg1G, BitVec.ofNat 8 (32 * (gyroOdrCode g.odr).toNat +
        8 * (gyroScaleCode g.scale).toNat + (gyroBwCode g.bandwidth).toNat), .control⟩,
     ⟨s.cfg.regmap.ctrlReg2G, BitVec.ofNat 8 (4 * (gyroPathCode g.intSel).toNat +
        (gyroPathCode g.outSel).toNat), .control⟩,
     ⟨s.cfg.regmap.ctrlReg3G, BitVec.ofNat 8 (128 * g.lowPower.toNat + 64 * g.hpfEnable.toNat +
        (gyroHpcfCode g.hpfCutoff).toNat), .control⟩,
     ⟨s.cfg.regmap.ctrlReg4, BitVec.ofNat 8 (32 * g.enableZ.toNat + 16 * g.enableY.toNat +
        8 * g.enableX.toNat), .enable⟩])) }

/-- R182 to R186, R192: `ENC.M` answers the four register bytes, field by field, with `cfg.mag_sim` at
bit 2 of CTRL_REG3_M, and changes nothing else. -/
def Obligations.EncMAnswersRegisterBytes : Prop :=
  ∀ (m : MagSettings) (s : State), exec (.encM m) s = .next { s with reply := some (.ok (.entries
    [⟨s.cfg.regmap.ctrlReg1M, BitVec.ofNat 8 (32 * (magPerfCode m.xyMode).toNat +
        4 * (magOdrCode m.odr).toNat + 2 * m.fastOdr.toNat), .control⟩,
     ⟨s.cfg.regmap.ctrlReg2M, BitVec.ofNat 8 (32 * (magScaleCode m.scale).toNat), .control⟩,
     ⟨s.cfg.regmap.ctrlReg4M, BitVec.ofNat 8 (4 * (magPerfCode m.zMode).toNat), .control⟩,
     ⟨s.cfg.regmap.ctrlReg3M, BitVec.ofNat 8 (32 * m.lowPower.toNat + 4 * s.cfg.magSim.toNat +
        (magModeCode m.mode).toNat), .enable⟩])) }

/-- R188: the register list of a record decodes back into the record, on every configuration; so two
records of one sensor that differ in any field have different register lists. -/
def Obligations.RegisterListDecodesToRecord : Prop :=
  (∀ (c : Cfg) (r : Settings), ofRegisterBits (sensorOf r) (toRegisterBits c r) = some r) ∧
  (∀ (c : Cfg) (r r' : Settings), sensorOf r = sensorOf r' →
    toRegisterBits c r = toRegisterBits c r' → r = r')

/-- R152, R187: every `Control` entry comes before the one `Enable` entry, which is CTRL_REG5_XL,
CTRL_REG4 or CTRL_REG3_M; and with the default map no register comes twice. A map that repeats an offset
is admitted and listed as it is, which is the model's choice (assumption log 20). -/
def Obligations.ControlEntriesComeBeforeEnable : Prop :=
  (∀ (c : Cfg) (r : Settings), ∃ (ctl : List RegEntry) (v : Byte),
    toRegisterBits c r = ctl ++ [⟨match r with
      | .xl _ => c.regmap.ctrlReg5Xl
      | .g _ => c.regmap.ctrlReg4
      | .m _ => c.regmap.ctrlReg3M, v, .enable⟩] ∧ ∀ e ∈ ctl, e.cls = .control) ∧
  (∀ (c : Cfg) (r : Settings), c.regmap = defaultRegMap →
    ((toRegisterBits c r).map (·.reg)).Nodup)

/-- R158, R162, R168, R174, R181, R186: the register lists of the default records. -/
def Obligations.DefaultRecordsEncodeByTable : Prop :=
  ∀ k : BusKind,
    toRegisterBits (defaultCfg k) (.xl accelDefault) =
      [⟨0x20, 0x60, .control⟩, ⟨0x21, 0x00, .control⟩, ⟨0x1F, 0x38, .enable⟩] ∧
    toRegisterBits (defaultCfg k) (.g gyroDefault) =
      [⟨0x10, 0x60, .control⟩, ⟨0x11, 0x00, .control⟩, ⟨0x12, 0x00, .control⟩,
       ⟨0x1E, 0x38, .enable⟩] ∧
    toRegisterBits (defaultCfg k) (.m magDefault) =
      [⟨0x20, 0x10, .control⟩, ⟨0x21, 0x00, .control⟩, ⟨0x23, 0x00, .control⟩,
       ⟨0x22, 0x00, .enable⟩]

/-! ### Unit conversion -/

/-- R10: `float(r)` is exact for every `i16`. -/
def Obligations.FloatOfSampleIsExact : Prop :=
  ∀ r : I16, fVal (float r) = some (r.toInt : ℚ)

/-- R10: `fmul` is the exact product rounded once, to nearest with ties to even, for every pair of
finite operands whose product does not round past the largest finite binary32. -/
def Obligations.FmulRoundsOnceToNearestEven : Prop :=
  ∀ (a b : F32) (x y : ℚ), fVal a = some x → fVal b = some y →
    |x * y| < 2 ^ 128 - 2 ^ 103 → IsRnd (x * y) (fmul a b)

/-- R10: `fdiv` is the exact quotient rounded once, to nearest with ties to even. -/
def Obligations.FdivRoundsOnceToNearestEven : Prop :=
  ∀ (a b : F32) (x y : ℚ), fVal a = some x → fVal b = some y → y ≠ 0 →
    |x / y| < 2 ^ 128 - 2 ^ 103 → IsRnd (x / y) (fdiv a b)

/-- R10: `fadd` is the exact sum rounded once, to nearest with ties to even. -/
def Obligations.FaddRoundsOnceToNearestEven : Prop :=
  ∀ (a b : F32) (x y : ℚ), fVal a = some x → fVal b = some y →
    |x + y| < 2 ^ 128 - 2 ^ 103 → IsRnd (x + y) (fadd a b)

/-- R221: each default sensitivity has the table's exact value and is the table's decimal, rounded. -/
def Obligations.SensitivitiesAreRoundedDecimals : Prop :=
  (fVal defaultSens.xlG2 = some (261993 / 2 ^ 32) ∧ IsRnd (61 / 1000000) defaultSens.xlG2) ∧
  (fVal defaultSens.xlG4 = some (261993 / 2 ^ 31) ∧ IsRnd (122 / 1000000) defaultSens.xlG4) ∧
  (fVal defaultSens.xlG8 = some (261993 / 2 ^ 30) ∧ IsRnd (244 / 1000000) defaultSens.xlG8) ∧
  (fVal defaultSens.xlG16 = some (785979 / 2 ^ 30) ∧ IsRnd (732 / 1000000) defaultSens.xlG16) ∧
  (fVal defaultSens.gDps245 = some (9395241 / 2 ^ 30) ∧ IsRnd (875 / 100000) defaultSens.gDps245) ∧
  (fVal defaultSens.gDps500 = some (9395241 / 2 ^ 29) ∧ IsRnd (175 / 10000) defaultSens.gDps500) ∧
  (fVal defaultSens.gDps2000 = some (9395241 / 2 ^ 27) ∧ IsRnd (7 / 100) defaultSens.gDps2000) ∧
  (fVal defaultSens.mG4 = some (9620727 / 2 ^ 36) ∧ IsRnd (14 / 100000) defaultSens.mG4) ∧
  (fVal defaultSens.mG8 = some (2491081 / 2 ^ 33) ∧ IsRnd (29 / 100000) defaultSens.mG8) ∧
  (fVal defaultSens.mG12 = some (14774687 / 2 ^ 35) ∧ IsRnd (43 / 100000) defaultSens.mG12) ∧
  (fVal defaultSens.mG16 = some (2491081 / 2 ^ 32) ∧ IsRnd (58 / 100000) defaultSens.mG16)

/-- R229 to R231: `SENS.*` answers the table's entry for the scale value and changes nothing else. -/
def Obligations.SensAnswersTableEntry : Prop :=
  ∀ s : State,
    (∀ k, exec (.sensXl k) s = .next { s with reply := some (.ok (.phys (match k with
      | .g2 => s.cfg.sens.xlG2
      | .g4 => s.cfg.sens.xlG4
      | .g8 => s.cfg.sens.xlG8
      | .g16 => s.cfg.sens.xlG16))) }) ∧
    (∀ k, exec (.sensG k) s = .next { s with reply := some (.ok (.phys (match k with
      | .dps245 => s.cfg.sens.gDps245
      | .dps500 => s.cfg.sens.gDps500
      | .dps2000 => s.cfg.sens.gDps2000))) }) ∧
    (∀ k, exec (.sensM k) s = .next { s with reply := some (.ok (.phys (match k with
      | .g4 => s.cfg.sens.mG4
      | .g8 => s.cfg.sens.mG8
      | .g12 => s.cfg.sens.mG12
      | .g16 => s.cfg.sens.mG16))) })

/-- R223, R232 to R234, R236: `CONV.*` multiplies each lane by the sensitivity of its scale, and changes
nothing else. -/
def Obligations.ConvMultipliesEachLane : Prop :=
  ∀ (s : State) (x y z : I16),
    (∀ k, exec (.convXl k x y z) s =
      (let t := match k with
        | .g2 => s.cfg.sens.xlG2
        | .g4 => s.cfg.sens.xlG4
        | .g8 => s.cfg.sens.xlG8
        | .g16 => s.cfg.sens.xlG16
       .next { s with reply := some (.ok (.phys3
         ⟨fmul (float x) t, fmul (float y) t, fmul (float z) t⟩)) })) ∧
    (∀ k, exec (.convG k x y z) s =
      (let t := match k with
        | .dps245 => s.cfg.sens.gDps245
        | .dps500 => s.cfg.sens.gDps500
        | .dps2000 => s.cfg.sens.gDps2000
       .next { s with reply := some (.ok (.phys3
         ⟨fmul (float x) t, fmul (float y) t, fmul (float z) t⟩)) })) ∧
    (∀ k, exec (.convM k x y z) s =
      (let t := match k with
        | .g4 => s.cfg.sens.mG4
        | .g8 => s.cfg.sens.mG8
        | .g12 => s.cfg.sens.mG12
        | .g16 => s.cfg.sens.mG16
       .next { s with reply := some (.ok (.phys3
         ⟨fmul (float x) t, fmul (float y) t, fmul (float z) t⟩)) }))

/-- R227, R235: `TCONV` divides first and adds then, and changes nothing else. -/
def Obligations.TconvDividesThenAdds : Prop :=
  ∀ (s : State) (raw : I16), exec (.tconv raw) s =
    .next { s with reply := some (.ok (.phys
      (fadd (fdiv (float raw) s.cfg.tempScale) s.cfg.tempOffset))) }

/-- R224: with a default sensitivity no product is infinite, a NaN or subnormal; a zero sample gives
`+0.0`; negating a nonzero sample flips the sign bit only; and the least sample gives an exact
product. -/
def Obligations.ProductsHaveNoCornerCases : Prop :=
  ∀ t ∈ [defaultSens.xlG2, defaultSens.xlG4, defaultSens.xlG8, defaultSens.xlG16,
      defaultSens.gDps245, defaultSens.gDps500, defaultSens.gDps2000,
      defaultSens.mG4, defaultSens.mG8, defaultSens.mG12, defaultSens.mG16],
    (∀ raw : I16, ∃ v, fVal (phys raw t) = some v ∧ |v| ≤ 2294 ∧
      (raw ≠ 0 → (2 : ℚ) ^ (-126 : ℤ) ≤ |v|)) ∧
    phys 0 t = 0x00000000 ∧
    (∀ raw : I16, raw ≠ 0 → raw ≠ 0x8000 → phys (-raw) t = phys raw t ^^^ 0x80000000) ∧
    (∃ v, fVal t = some v ∧ fVal (phys 0x8000 t) = some (-(32768 * v)))

/-- R227: with the default constants the temperature is exact for every sample. -/
def Obligations.DefaultTemperatureIsExact : Prop :=
  ∀ (k : BusKind) (raw : I16), fVal (temp (defaultCfg k) raw) = some ((raw.toInt : ℚ) / 16 + 25)

/-! ### Register transport -/

/-- R112, R121, R130, R131: an admitted `TWR` whose transfer succeeds. Its whole next state is the
write's events, the chip-select high again, one answer drawn, and `Ok(())`. -/
def Obligations.TwrWritesOneFrame : Prop :=
  ∀ (s : State) (reg : Byte) (data inb : List Byte),
    1 ≤ data.length → data.length ≤ s.cfg.maxBurst → s.nextDraw = .ok inb →
    (s.cfg.kind = .serial → inb.length = data.length + 1) →
    ((s.cfg.kind = .serial → reg.toNat ≤ 0x7F) → exec (.twrAg reg data) s =
      .next (s.afterBus .ag 1 (writeEvents s.cfg .ag reg data (.ok inb)) (.ok .unit))) ∧
    (s.cfg.kind = .serial → reg.toNat ≤ 0x3F → exec (.twrM reg data) s =
      .next (s.afterBus .m 1 (writeEvents s.cfg .m reg data (.ok inb)) (.ok .unit)))

/-- R115, R116, R124, R132, R133: an admitted `TRD` whose transfer succeeds answers the `n` data
bytes. -/
def Obligations.TrdAnswersDataBytes : Prop :=
  ∀ (s : State) (reg junk : Byte) (data : List Byte),
    1 ≤ data.length → data.length ≤ s.cfg.maxBurst →
    s.nextDraw = .ok (received s.cfg junk data) →
    ((s.cfg.kind = .serial → reg.toNat ≤ 0x7F) → exec (.trdAg reg data.length) s =
      .next (s.afterBus .ag 1
        (readEvents s.cfg .ag reg data.length (.ok (received s.cfg junk data)))
        (.ok (.bytes data)))) ∧
    (s.cfg.kind = .serial → reg.toNat ≤ 0x3F → exec (.trdM reg data.length) s =
      .next (s.afterBus .m 1
        (readEvents s.cfg .m reg data.length (.ok (received s.cfg junk data)))
        (.ok (.bytes data))))

/-- R112, R113, R115, R117, R121, R124, R125, R127: an admitted transport command whose transfer fails,
or answers another length where a length can be seen, returns a `BusError` that names the logical
register, no bytes, and leaves the chip-select high. -/
def Obligations.TransportFailureIsBusError : Prop :=
  ∀ (s : State) (reg : Byte) (a : Ans (List Byte)), s.nextDraw = drawOf a →
    (∀ data : List Byte, 1 ≤ data.length → data.length ≤ s.cfg.maxBurst →
      (∀ inb, a = .ok inb → s.cfg.kind = .serial ∧ inb.length ≠ data.length + 1) →
      ((s.cfg.kind = .serial → reg.toNat ≤ 0x7F) → exec (.twrAg reg data) s =
        .next (s.afterBus .ag 1 (writeEvents s.cfg .ag reg data a)
          (.err (.busError .write .ag reg)))) ∧
      (s.cfg.kind = .serial → reg.toNat ≤ 0x3F → exec (.twrM reg data) s =
        .next (s.afterBus .m 1 (writeEvents s.cfg .m reg data a) (.err (.busError .write .m reg))))) ∧
    (∀ n : Nat, 1 ≤ n → n ≤ s.cfg.maxBurst →
      (∀ inb, a = .ok inb → inb.length ≠ if s.cfg.kind = .serial then n + 1 else n) →
      ((s.cfg.kind = .serial → reg.toNat ≤ 0x7F) → exec (.trdAg reg n) s =
        .next (s.afterBus .ag 1 (readEvents s.cfg .ag reg n a) (.err (.busError .read .ag reg)))) ∧
      (s.cfg.kind = .serial → reg.toNat ≤ 0x3F → exec (.trdM reg n) s =
        .next (s.afterBus .m 1 (readEvents s.cfg .m reg n a) (.err (.busError .read .m reg)))))

/-- R93, R95, R129, R316: transport operands out of range are refused, with no other effect. That an
operand out of range gives this reason also where `M` is on the addressed bus is the model's reading of
R129 (assumption log 18), and that the refusal shows in `reply` is the model's (assumption log 4). -/
def Obligations.TransportOperandsOutOfRangeAreRefused : Prop :=
  ∀ (s : State) (reg : Byte),
    (∀ n, n = 0 ∨ s.cfg.maxBurst < n ∨ (s.cfg.kind = .serial ∧ 0x7F < reg.toNat) →
      exec (.trdAg reg n) s = .next { s with refused := true,
                                             reply := some (.refused .operandOutOfRange) } ∧
      ∀ data : List Byte, data.length = n →
        exec (.twrAg reg data) s = .next { s with refused := true,
                                                  reply := some (.refused .operandOutOfRange) }) ∧
    (∀ n, n = 0 ∨ s.cfg.maxBurst < n ∨ (s.cfg.kind = .serial ∧ 0x3F < reg.toNat) →
      exec (.trdM reg n) s = .next { s with refused := true,
                                            reply := some (.refused .operandOutOfRange) } ∧
      ∀ data : List Byte, data.length = n →
        exec (.twrM reg data) s = .next { s with refused := true,
                                                 reply := some (.refused .operandOutOfRange) })

/-- R120, R261, R317, R318: on the addressed bus every magnetometer command is refused as unimplemented,
whatever the lifecycle, with no other effect. A transport command's byte count is in range here; out
of range it is refused for that (assumption log 18). That the refusal shows in `reply` is the model's
(assumption log 4). -/
def Obligations.MagnetometerOnAddressedBusIsRefused : Prop :=
  ∀ s : State, s.cfg.kind = .addressed →
    ∀ i : Instr,
      ((∃ m, i = .cfgM m) ∨ i = .enM ∨ i = .rdM ∨ i = .rdrawM ∨
        (∃ reg data, i = .twrM reg data ∧ 1 ≤ data.length ∧ data.length ≤ s.cfg.maxBurst) ∨
        (∃ reg n, i = .trdM reg n ∧ 1 ≤ n ∧ n ≤ s.cfg.maxBurst)) →
      exec i s = .next { s with refused := true, reply := some (.refused .unimplemented) }

/-- R33, R37, R367: when the oracle gives no answer, an admitted `TWR.AG` or `TRD.AG` never completes. The
form is the model's choice (assumption log 7): the block waits on that primitive, with no result and, on
the serial bus, its chip-select low and only that `CsSet` recorded; then it takes no step. -/
def Obligations.UnansweredTransferHangsTheBlock : Prop :=
  ∀ (s : State) (reg : Byte), s.nextDraw = .noAnswer → (s.cfg.kind = .serial → reg.toNat ≤ 0x7F) →
    (∀ data : List Byte, 1 ≤ data.length → data.length ≤ s.cfg.maxBurst →
      ∃ t c, exec (.twrAg reg data) s = .next t ∧ t.waiting = some c ∧ t.reply = none ∧
        step t = .fault (.hung c) ∧
        (s.cfg.kind = .serial → c = .xfer (spiWriteOut .ag reg data) ∧ t.csAg = .low ∧
          t.hist = s.hist ++ [.cs .ag .low]) ∧
        (s.cfg.kind = .addressed → c = .iwr s.cfg.agAddr (reg :: data) ∧ t.hist = s.hist)) ∧
    (∀ n : Nat, 1 ≤ n → n ≤ s.cfg.maxBurst →
      ∃ t c, exec (.trdAg reg n) s = .next t ∧ t.waiting = some c ∧ t.reply = none ∧
        step t = .fault (.hung c) ∧
        (s.cfg.kind = .serial → c = .xfer (spiReadOut .ag reg n) ∧ t.csAg = .low ∧
          t.hist = s.hist ++ [.cs .ag .low]) ∧
        (s.cfg.kind = .addressed → c = .iwrrd s.cfg.agAddr [reg] n ∧ t.hist = s.hist))

/-! ### Wire frames -/

/-- R84 to R88: each wire-frame row, on its own bus, puts its frame on the wire; with a successful
answer the next state is that operation's. That a frame is run as an instruction of its own is the
model's choice (assumption log 5). -/
def Obligations.WireFrameRowsPutTheirFrame : Prop :=
  ∀ (s : State) (reg : Byte) (data inb : List Byte),
    (s.cfg.kind = .serial → 1 ≤ data.length → data.length ≤ s.cfg.maxBurst →
      s.nextDraw = .ok inb → inb.length = data.length + 1 →
      (reg.toNat ≤ 0x7F → exec (.spiAgWrite reg data) s =
        .next (s.afterBus .ag 1 [.cs .ag .low, .xfer (reg :: data) (.ok inb), .cs .ag .high]
          (.ok .unit))) ∧
      (reg.toNat ≤ 0x7F → exec (.spiAgRead reg data.length) s =
        .next (s.afterBus .ag 1
          [.cs .ag .low, .xfer ((reg ||| 0x80) :: zeros data.length) (.ok inb), .cs .ag .high]
          (.ok (.bytes (inb.drop 1))))) ∧
      (reg.toNat ≤ 0x3F → data.length = 1 → ∀ b, data = [b] → exec (.spiMWrite1 reg b) s =
        .next (s.afterBus .m 1 [.cs .m .low, .xfer [reg, b] (.ok inb), .cs .m .high]
          (.ok .unit))) ∧
      (reg.toNat ≤ 0x3F → 2 ≤ data.length → exec (.spiMWriteB reg data) s =
        .next (s.afterBus .m 1
          [.cs .m .low, .xfer ((reg ||| 0x40) :: data) (.ok inb), .cs .m .high] (.ok .unit))) ∧
      (reg.toNat ≤ 0x3F → data.length = 1 → exec (.spiMRead1 reg) s =
        .next (s.afterBus .m 1 [.cs .m .low, .xfer [reg ||| 0x80, 0] (.ok inb), .cs .m .high]
          (.ok (.bytes (inb.drop 1))))) ∧
      (reg.toNat ≤ 0x3F → 2 ≤ data.length → exec (.spiMReadB reg data.length) s =
        .next (s.afterBus .m 1
          [.cs .m .low, .xfer ((reg ||| 0xC0) :: zeros data.length) (.ok inb), .cs .m .high]
          (.ok (.bytes (inb.drop 1)))))) ∧
    (s.cfg.kind = .addressed → 1 ≤ data.length → data.length ≤ s.cfg.maxBurst →
      (s.nextDraw = .ok inb → exec (.i2cAgPtr reg (.write data)) s =
        .next (s.afterBus .ag 1 [.iwr s.cfg.agAddr (reg :: data) (.ok ())] (.ok .unit))) ∧
      (s.nextDraw = .ok data → exec (.i2cAgPtr reg (.read data.length)) s =
        .next (s.afterBus .ag 1 [.iwrrd s.cfg.agAddr [reg] data.length (.ok data)]
          (.ok (.bytes data)))))

/-- R110, R130 to R133: on its own bus, and with its operands in range, a wire-frame row is the transport
command that puts that frame on the wire, whatever the answer. That a frame is run as an instruction of
its own is the model's choice (assumption log 5). -/
def Obligations.WireFrameRowsEqualTransportCommands : Prop :=
  ∀ (s : State) (reg b : Byte) (data : List Byte) (n : Nat),
    (s.cfg.kind = .serial →
      (reg.toNat ≤ 0x7F → 1 ≤ data.length → data.length ≤ s.cfg.maxBurst →
        exec (.spiAgWrite reg data) s = exec (.twrAg reg data) s) ∧
      (reg.toNat ≤ 0x7F → 1 ≤ n → n ≤ s.cfg.maxBurst →
        exec (.spiAgRead reg n) s = exec (.trdAg reg n) s) ∧
      (reg.toNat ≤ 0x3F → 1 ≤ s.cfg.maxBurst →
        exec (.spiMWrite1 reg b) s = exec (.twrM reg [b]) s ∧
        exec (.spiMRead1 reg) s = exec (.trdM reg 1) s) ∧
      (reg.toNat ≤ 0x3F → 2 ≤ data.length → data.length ≤ s.cfg.maxBurst →
        exec (.spiMWriteB reg data) s = exec (.twrM reg data) s) ∧
      (reg.toNat ≤ 0x3F → 2 ≤ n → n ≤ s.cfg.maxBurst →
        exec (.spiMReadB reg n) s = exec (.trdM reg n) s)) ∧
    (s.cfg.kind = .addressed →
      (1 ≤ data.length → data.length ≤ s.cfg.maxBurst →
        exec (.i2cAgPtr reg (.write data)) s = exec (.twrAg reg data) s) ∧
      (1 ≤ n → n ≤ s.cfg.maxBurst →
        exec (.i2cAgPtr reg (.read n)) s = exec (.trdAg reg n) s))

/-- R23, R84, R85 and the model's choice (assumption log 5): a wire-frame row on a block of the other bus
stops by name; on its own bus, with a register, a byte count or a length that its row does not admit,
it is refused with no other effect. -/
def Obligations.WireFrameRowsOutOfForm : Prop :=
  ∀ (i : Instr) (s : State) (k : BusKind), frameKind i = some k →
    (s.cfg.kind ≠ k → exec i s = .refused (.frameOfOtherBus s.cfg.kind)) ∧
    (s.cfg.kind = k → (i.wf = false ∨ s.cfg.maxBurst < frameBytes i) →
      exec i s = .next { s with refused := true, reply := some (.refused .operandOutOfRange) })

/-! ### Driver facade -/

/-- R262 to R265: when every write succeeds, `CFG.s` writes each register of the record once, in list
order, leaving the enable register out unless the sensor is `Enabled`; it stores the record, and the
lifecycle is `Configured`, or stays `Enabled`. -/
def Obligations.ConfigureWritesThenStores : Prop :=
  ∀ (s : State) (r : Settings) (inbs : List (List Byte)),
    let k := sensorOf r
    let ws := if s.life k = .enabled then toRegisterBits s.cfg r
      else (toRegisterBits s.cfg r).dropLast
    (s.cfg.kind = .addressed → k ≠ .m) →
    inbs.length = ws.length → s.nextDraws (inbs.map .ok) →
    (s.cfg.kind = .serial → ∀ i ∈ inbs, i.length = 2) →
    exec (cfgInstr r) s = .next
      ((((s.afterBus (devOf k) ws.length (writesEvents s.cfg (devOf k) ws inbs) (.ok .unit)).store
        r)).setLife k (if s.life k = .enabled then .enabled else .configured))

/-- R263 to R265, R279, R311: when the first writes of `CFG.s` succeed and the next does not, the command
returns a `BusError` naming that write's register, attempts no later write, and keeps lifecycle and
settings. -/
def Obligations.ConfigureStopsAtFirstFailure : Prop :=
  ∀ (s : State) (r : Settings) (pre post : List RegEntry) (w : RegEntry) (inbs : List (List Byte))
    (a : Ans (List Byte)),
    let k := sensorOf r
    (s.cfg.kind = .addressed → k ≠ .m) →
    (if s.life k = .enabled then toRegisterBits s.cfg r
      else (toRegisterBits s.cfg r).dropLast) = pre ++ w :: post →
    inbs.length = pre.length → s.nextDraws (inbs.map .ok ++ [drawOf a]) →
    (s.cfg.kind = .serial → ∀ i ∈ inbs, i.length = 2) →
    (∀ inb, a = .ok inb → s.cfg.kind = .serial ∧ inb.length ≠ 2) →
    exec (cfgInstr r) s = .next (s.afterBus (devOf k) (pre.length + 1)
      (writesEvents s.cfg (devOf k) pre inbs ++ writeEvents s.cfg (devOf k) w.reg [w.value] a)
      (.err (.busError .write (devOf k) w.reg)))

/-- R266 to R269, R280: when its write succeeds, `EN.s` writes the stored record's enable register, in
`Configured` and in `Enabled` alike, and the sensor is `Enabled`. -/
def Obligations.EnableWritesEnableRegister : Prop :=
  ∀ (s : State) (k : Sensor) (r : Settings) (v : Byte) (inb : List Byte),
    (s.cfg.kind = .addressed → k ≠ .m) → s.life k ≠ .unconfigured → s.settings k = some r →
    (toRegisterBits s.cfg r).getLast? = some ⟨match k with
      | .xl => s.cfg.regmap.ctrlReg5Xl
      | .g => s.cfg.regmap.ctrlReg4
      | .m => s.cfg.regmap.ctrlReg3M, v, .enable⟩ →
    s.nextDraw = .ok inb → (s.cfg.kind = .serial → inb.length = 2) →
    exec (enInstr k) s = .next ((s.afterBus (devOf k) 1
      (writeEvents s.cfg (devOf k) (match k with
        | .xl => s.cfg.regmap.ctrlReg5Xl
        | .g => s.cfg.regmap.ctrlReg4
        | .m => s.cfg.regmap.ctrlReg3M) [v] (.ok inb)) (.ok .unit)).setLife k .enabled)

/-- R266, R279: when its write does not succeed, `EN.s` returns a `BusError` and keeps the lifecycle. -/
def Obligations.FailedEnableKeepsLifecycle : Prop :=
  ∀ (s : State) (k : Sensor) (r : Settings) (w : RegEntry) (a : Ans (List Byte)),
    (s.cfg.kind = .addressed → k ≠ .m) → s.life k ≠ .unconfigured → s.settings k = some r →
    (toRegisterBits s.cfg r).getLast? = some w → s.nextDraw = drawOf a →
    (∀ inb, a = .ok inb → s.cfg.kind = .serial ∧ inb.length ≠ 2) →
    exec (enInstr k) s = .next (s.afterBus (devOf k) 1
      (writeEvents s.cfg (devOf k) w.reg [w.value] a) (.err (.busError .write (devOf k) w.reg)))

/-- R222, R270 to R273, R281: `RD.s` in `Enabled`, with a full answer, multiplies the three samples of the
6-byte burst, low byte first, by the table entry of the stored record's scale. -/
def Obligations.ReadConvertsTheBurst : Prop :=
  ∀ (s : State) (k : Sensor) (r : Settings) (junk xl xh yl yh zl zh : Byte),
    (s.cfg.kind = .addressed → k ≠ .m) → s.life k = .enabled → s.settings k = some r →
    s.nextDraw = .ok (received s.cfg junk [xl, xh, yl, yh, zl, zh]) →
    let t := match r with
      | .xl a => (match a.scale with
        | .g2 => s.cfg.sens.xlG2
        | .g4 => s.cfg.sens.xlG4
        | .g8 => s.cfg.sens.xlG8
        | .g16 => s.cfg.sens.xlG16)
      | .g g => (match g.scale with
        | .dps245 => s.cfg.sens.gDps245
        | .dps500 => s.cfg.sens.gDps500
        | .dps2000 => s.cfg.sens.gDps2000)
      | .m m => (match m.scale with
        | .g4 => s.cfg.sens.mG4
        | .g8 => s.cfg.sens.mG8
        | .g12 => s.cfg.sens.mG12
        | .g16 => s.cfg.sens.mG16)
    exec (rdInstr k) s = .next (s.afterBus (devOf k) 1
      (readEvents s.cfg (devOf k) (match k with
        | .xl => s.cfg.regmap.outXLXl
        | .g => s.cfg.regmap.outXLG
        | .m => s.cfg.regmap.outXLM) 6 (.ok (received s.cfg junk [xl, xh, yl, yh, zl, zh])))
      (.ok (.phys3
        ⟨fmul (float (xh ++ xl)) t, fmul (float (yh ++ yl)) t, fmul (float (zh ++ zl)) t⟩)))

/-- R270, R275 to R277, R281: `RDRAW.s` in `Enabled`, with a full answer, answers the three samples of the
6-byte burst, low byte first. -/
def Obligations.RawReadAnswersTheBurst : Prop :=
  ∀ (s : State) (k : Sensor) (junk xl xh yl yh zl zh : Byte),
    (s.cfg.kind = .addressed → k ≠ .m) → s.life k = .enabled →
    s.nextDraw = .ok (received s.cfg junk [xl, xh, yl, yh, zl, zh]) →
    exec (rdrawInstr k) s = .next (s.afterBus (devOf k) 1
      (readEvents s.cfg (devOf k) (match k with
        | .xl => s.cfg.regmap.outXLXl
        | .g => s.cfg.regmap.outXLG
        | .m => s.cfg.regmap.outXLM) 6 (.ok (received s.cfg junk [xl, xh, yl, yh, zl, zh])))
      (.ok (.raw3 ⟨xh ++ xl, yh ++ yl, zh ++ zl⟩)))

/-- R270, R274, R278: `RD.T` and `RDRAW.T`, in every lifecycle state and on both buses, with a full
answer. -/
def Obligations.TemperatureReadsAnswer : Prop :=
  ∀ (s : State) (junk lo hi : Byte), s.nextDraw = .ok (received s.cfg junk [lo, hi]) →
    exec .rdT s = .next (s.afterBus .ag 1
      (readEvents s.cfg .ag s.cfg.regmap.outTempL 2 (.ok (received s.cfg junk [lo, hi])))
      (.ok (.phys (fadd (fdiv (float (hi ++ lo)) s.cfg.tempScale) s.cfg.tempOffset)))) ∧
    exec .rdrawT s = .next (s.afterBus .ag 1
      (readEvents s.cfg .ag s.cfg.regmap.outTempL 2 (.ok (received s.cfg junk [lo, hi])))
      (.ok (.raw (hi ++ lo))))

/-- R313: `EN.s` in `Unconfigured` is a `SequenceError` that requires `Configured`, and `RD.s` and
`RDRAW.s` outside `Enabled` are ones that require `Enabled`, with nothing else changed; a
`SequenceError` is returned in these cases only, and its status is 2. A magnetometer command on the
addressed bus is refused before that (R318). -/
def Obligations.SequenceErrorsByRule : Prop :=
  (∀ (s : State) (k : Sensor), (s.cfg.kind = .addressed → k ≠ .m) →
    (s.life k = .unconfigured → exec (enInstr k) s =
      .next { s with reply := some (.err (.sequenceError (.en k) .configured)) }) ∧
    (s.life k ≠ .enabled →
      exec (rdInstr k) s =
        .next { s with reply := some (.err (.sequenceError (.rd k) .enabled)) } ∧
      exec (rdrawInstr k) s =
        .next { s with reply := some (.err (.sequenceError (.rdraw k) .enabled)) })) ∧
  (∀ (i : Instr) (s t : State) (cmd : SeqCmd) (req : DriverState), exec i s = .next t →
    t.reply = some (.err (.sequenceError cmd req)) →
    ∃ k, (i = enInstr k ∧ cmd = .en k ∧ req = .configured ∧ s.life k = .unconfigured) ∨
      (i = rdInstr k ∧ cmd = .rd k ∧ req = .enabled ∧ s.life k ≠ .enabled) ∨
      (i = rdrawInstr k ∧ cmd = .rdraw k ∧ req = .enabled ∧ s.life k ≠ .enabled)) ∧
  (∀ cmd req, status (.err (.sequenceError cmd req)) = some 2)

/-- R270, R279, R315: a read whose transfer fails or answers another length returns a `BusError` and no
sample, and keeps lifecycle and settings. -/
def Obligations.FailedReadGivesNoSample : Prop :=
  ∀ (s : State) (a : Ans (List Byte)), s.nextDraw = drawOf a →
    (∀ (k : Sensor) (r : Settings), (s.cfg.kind = .addressed → k ≠ .m) → s.life k = .enabled →
      s.settings k = some r →
      (∀ inb, a = .ok inb → inb.length ≠ if s.cfg.kind = .serial then 7 else 6) →
      let reg := match k with
        | .xl => s.cfg.regmap.outXLXl
        | .g => s.cfg.regmap.outXLG
        | .m => s.cfg.regmap.outXLM
      let t := s.afterBus (devOf k) 1 (readEvents s.cfg (devOf k) reg 6 a)
        (.err (.busError .read (devOf k) reg))
      exec (rdInstr k) s = .next t ∧ exec (rdrawInstr k) s = .next t) ∧
    ((∀ inb, a = .ok inb → inb.length ≠ if s.cfg.kind = .serial then 3 else 2) →
      let t := s.afterBus .ag 1 (readEvents s.cfg .ag s.cfg.regmap.outTempL 2 a)
        (.err (.busError .read .ag s.cfg.regmap.outTempL))
      exec .rdT s = .next t ∧ exec .rdrawT s = .next t)

/-! ### Frames -/

/-- R192, D35: a pure command changes nothing but the result returned to the caller. -/
def Obligations.PureCommandsChangeOnlyTheReply : Prop :=
  ∀ (i : Instr) (s : State), isPure i = true →
    ∃ v, exec i s = .next { s with reply := some (.ok v) }

/-- R22, R24, R26, R128, R270: what a transport command, a wire-frame row or a read leaves unchanged,
however it ends: the configuration, every lifecycle and stored record, the requests still to come, the
other device's chip-select, and the events already in the history. A refusal is told by `reply`
(assumption log 4) and a hang by `waiting` (assumption log 7), which are the model's. -/
def Obligations.TransportAndReadFrame : Prop :=
  ∀ (i : Instr) (s t : State) (d : Dev), devUsed i = some d → writesLife i = none →
    exec i s = .next t →
    t.cfg = s.cfg ∧ (∀ k, t.life k = s.life k) ∧ (∀ k, t.settings k = s.settings k) ∧
    t.inbox = s.inbox ∧ (∀ d', d' ≠ d → t.cs d' = s.cs d') ∧
    (t.refused = s.refused ∨ (∃ q, t.reply = some (.refused q)) ∧ t.hist = s.hist) ∧
    (t.waiting = s.waiting ∨ t.reply = none) ∧ s.hist <+: t.hist

/-- R22, R24, R26, R262: what `CFG.s` leaves unchanged, however it ends: the configuration, the other
sensors' lifecycle and settings, the requests still to come, the other device's chip-select. For `reply`
and `waiting` see assumption logs 4 and 7. -/
def Obligations.ConfigureFrame : Prop :=
  ∀ (r : Settings) (s t : State), exec (cfgInstr r) s = .next t →
    t.cfg = s.cfg ∧ (∀ k, k ≠ sensorOf r → t.life k = s.life k ∧ t.settings k = s.settings k) ∧
    t.inbox = s.inbox ∧ (∀ d', d' ≠ devOf (sensorOf r) → t.cs d' = s.cs d') ∧
    (t.refused = s.refused ∨ (∃ q, t.reply = some (.refused q)) ∧ t.hist = s.hist) ∧
    (t.waiting = s.waiting ∨ t.reply = none) ∧ s.hist <+: t.hist

/-- R22, R24, R26, R266: what `EN.s` leaves unchanged, however it ends: the configuration, every stored
record, the other sensors' lifecycle, the requests still to come, the other device's chip-select. For
`reply` and `waiting` see assumption logs 4 and 7. -/
def Obligations.EnableFrame : Prop :=
  ∀ (k : Sensor) (s t : State), exec (enInstr k) s = .next t →
    t.cfg = s.cfg ∧ (∀ k', t.settings k' = s.settings k') ∧
    (∀ k', k' ≠ k → t.life k' = s.life k') ∧
    t.inbox = s.inbox ∧ (∀ d', d' ≠ devOf k → t.cs d' = s.cs d') ∧
    (t.refused = s.refused ∨ (∃ q, t.reply = some (.refused q)) ∧ t.hist = s.hist) ∧
    (t.waiting = s.waiting ∨ t.reply = none) ∧ s.hist <+: t.hist

/-! ### The whole machine -/

/-- R25, R28: every step keeps the invariant: a sensor is `Unconfigured` exactly when it has no stored
settings, and both chip-selects are high unless the block hangs inside a command (assumption log 7). -/
def Obligations.StepKeepsInvariant : Prop :=
  ∀ s t : State, s.Inv → step s = .next t → t.Inv

/-- R35, R350: the state after construction; it meets the invariant. The reset state is the one with
the default arguments (its bus kind is the model's choice, assumption log 2). -/
def Obligations.ConstructionState : Prop :=
  (∀ c : Cfg, (State.construct c).cfg = c ∧
    (∀ d, (State.construct c).cs d = .high) ∧
    (∀ k, (State.construct c).life k = .unconfigured) ∧
    (∀ k, (State.construct c).settings k = none) ∧
    (State.construct c).hist = [] ∧ (State.construct c).refused = false ∧
    (State.construct c).Inv) ∧
  State.reset = State.construct (defaultCfg .serial) ∧ (∀ k, (defaultCfg k).wf = true)

/-- R310, R319, R322: in a state that keeps R28, `exec` of every command answers a next state, and so does
every wire-frame row on its own bus (log 5): there is no trap. This counts a command whose primitive is
never answered, which R33 says never completes: its next state, with `waiting` set, is the model's form of
a hang (assumption log 7). That commands complete is said by the result statements. -/
def Obligations.EveryCommandEndsInNextState : Prop :=
  ∀ (i : Instr) (s : State), s.SlotsAgree → (∀ k, frameKind i = some k → s.cfg.kind = k) →
    ∃ t, exec i s = .next t

/-- R22: no command writes `cfg`. -/
def Obligations.ConfigurationIsNeverWritten : Prop :=
  (∀ s t : State, step s = .next t → t.cfg = s.cfg) ∧
  (∀ (i : Instr) (s t : State), exec i s = .next t → t.cfg = s.cfg)

/-- R34, R316: the mark `refused` is sticky; a refused command sets it and changes no other state; and
nothing else sets it. A refusal is told by the model's own field `reply` (assumption log 4). -/
def Obligations.RefusedMarkIsSticky : Prop :=
  (∀ s t : State, step s = .next t →
    (s.refused = true → t.refused = true) ∧
    (s.refused = false → t.refused = true → ∃ q, t.reply = some (.refused q))) ∧
  (∀ (i : Instr) (s t : State) (q : RefuseReason), exec i s = .next t →
    t.reply = some (.refused q) → t = { s with refused := true, reply := some (.refused q) })

/-- R260: how a lifecycle changes. Only a `CFG.s` that succeeds takes `Unconfigured` to `Configured`, and
only an `EN.s` that succeeds takes `Configured` to `Enabled`. -/
def Obligations.LifecycleTransitions : Prop :=
  ∀ (i : Instr) (s t : State) (k : Sensor), exec i s = .next t → t.life k ≠ s.life k →
    t.reply = some (.ok .unit) ∧
    ((∃ r, i = cfgInstr r ∧ sensorOf r = k ∧ s.life k = .unconfigured ∧ t.life k = .configured) ∨
     (i = enInstr k ∧ s.life k = .configured ∧ t.life k = .enabled))

/-- R26, R260: no step takes a sensor back in the order `Unconfigured < Configured < Enabled`. -/
def Obligations.LifecycleNeverFallsBack : Prop :=
  ∀ (s t : State) (k : Sensor), step s = .next t → lifeRank (s.life k) ≤ lifeRank (t.life k)

/-- R279, R313, R319: a command that returns an error keeps everything but the history and the bus: a
`SequenceError` changes nothing, and a `BusError` only adds events and leaves the chip-select high. -/
def Obligations.ErrorsKeepLifecycleAndSettings : Prop :=
  ∀ (i : Instr) (s t : State) (e : Err), exec i s = .next t → t.reply = some (.err e) →
    (∃ cmd req, e = .sequenceError cmd req ∧ t = { s with reply := some (.err e) }) ∨
    (∃ op d reg n es, e = .busError op d reg ∧ devUsed i = some d ∧
      t = s.afterBus d n es (.err e))

/-- R32, R80, R84 to R87, R111, R113: the history only grows, and what a step adds is whole transport
operations, each with its chip-select released; only a block that hangs leaves one open, at the end (assumption log 7). -/
def Obligations.BusTrafficIsWholeOperations : Prop :=
  ∀ s t : State, step s = .next t →
    ∃ es, t.hist = s.hist ++ es ∧ Traffic s.cfg t.waiting es

/-- R32: no rule reads `hist` to decide a step: with other events before it, a step ends the same way and
adds the same events. -/
def Obligations.HistoryIsNeverRead : Prop :=
  ∀ (s : State) (h : List BusEvent),
    step { s with hist := h ++ s.hist } =
      (match step s with
       | .next t => .next { t with hist := h ++ t.hist }
       | .fault f => .fault f
       | .refused r => .refused r)

/-- R31: the result is returned and kept nowhere: no instruction reads the model's `reply` field. -/
def Obligations.ReplyIsNeverRead : Prop :=
  ∀ (i : Instr) (s : State) (q : Option Reply), exec i { s with reply := q } = exec i s

/-- R26: sensors are independent: an instruction that is not for sensor `k` neither reads nor writes its
lifecycle and settings. -/
def Obligations.SensorsAreIndependent : Prop :=
  ∀ (i : Instr) (s u : State) (k : Sensor), sensorNamed i ≠ some k →
    exec i (s.slotFrom u k) =
      (match exec i s with
       | .next t => .next (t.slotFrom u k)
       | .fault f => .fault f
       | .refused r => .refused r)

/-- R314: the status codes. -/
def Obligations.StatusCodes : Prop :=
  (∀ v, status (.ok v) = some 0) ∧
  (∀ op d reg, status (.err (.busError op d reg)) = some 1) ∧
  (∀ cmd req, status (.err (.sequenceError cmd req)) = some 2) ∧
  (∀ q, status (.refused q) = none)

/-! ### Assembler -/

/-- R98: `CFG.s default` is `CFG.s` with the default record, as is the empty braces form; `INIT.s` is that
and `EN.s`; `RD6.d` is a 6-byte `TRD.d`. -/
def Obligations.PseudoInstructionsExpandByRule : Prop :=
  (∀ a, a = [Tok.word "default"] ∨ a = [.lbrace, .rbrace] →
    assemble (.word "CFG.XL" :: a) = some [.cfgXl accelDefault] ∧
    assemble (.word "CFG.G" :: a) = some [.cfgG gyroDefault] ∧
    assemble (.word "CFG.M" :: a) = some [.cfgM magDefault]) ∧
  assemble [.word "INIT.XL"] = some [.cfgXl accelDefault, .enXl] ∧
  assemble [.word "INIT.G"] = some [.cfgG gyroDefault, .enG] ∧
  assemble [.word "INIT.M"] = some [.cfgM magDefault, .enM] ∧
  (∀ reg : Byte, assemble [.word "RD6.AG", .num reg.toNat] = some [.trdAg reg 6] ∧
    assemble [.word "RD6.M", .num reg.toNat] = some [.trdM reg 6])
end

