-- ==== Sys2Proof/Laws/State.lean ====
section
/-! SUPPORT. What each named update of the state does to each field, so that no later proof unfolds a
record update. -/

namespace Sys2Proof.Machine

/-! ### `emit` -/

@[simp] theorem emit_cfg (s : State) (e : BusEvent) : (s.emit e).cfg = s.cfg := rfl
@[simp] theorem emit_csAg (s : State) (e : BusEvent) : (s.emit e).csAg = s.csAg := rfl
@[simp] theorem emit_csM (s : State) (e : BusEvent) : (s.emit e).csM = s.csM := rfl
@[simp] theorem emit_lifeXl (s : State) (e : BusEvent) : (s.emit e).lifeXl = s.lifeXl := rfl
@[simp] theorem emit_lifeG (s : State) (e : BusEvent) : (s.emit e).lifeG = s.lifeG := rfl
@[simp] theorem emit_lifeM (s : State) (e : BusEvent) : (s.emit e).lifeM = s.lifeM := rfl
@[simp] theorem emit_settingsXl (s : State) (e : BusEvent) : (s.emit e).settingsXl = s.settingsXl :=
  rfl
@[simp] theorem emit_settingsG (s : State) (e : BusEvent) : (s.emit e).settingsG = s.settingsG :=
  rfl
@[simp] theorem emit_settingsM (s : State) (e : BusEvent) : (s.emit e).settingsM = s.settingsM :=
  rfl
@[simp] theorem emit_hist (s : State) (e : BusEvent) : (s.emit e).hist = s.hist ++ [e] := rfl
@[simp] theorem emit_refused (s : State) (e : BusEvent) : (s.emit e).refused = s.refused := rfl
@[simp] theorem emit_inbox (s : State) (e : BusEvent) : (s.emit e).inbox = s.inbox := rfl
@[simp] theorem emit_reply (s : State) (e : BusEvent) : (s.emit e).reply = s.reply := rfl
@[simp] theorem emit_waiting (s : State) (e : BusEvent) : (s.emit e).waiting = s.waiting := rfl
@[simp] theorem emit_answers (s : State) (e : BusEvent) : (s.emit e).answers = s.answers := rfl
@[simp] theorem emit_draws (s : State) (e : BusEvent) : (s.emit e).draws = s.draws := rfl

/-! ### `setCs` -/

@[simp] theorem setCs_cfg (s : State) (d : Dev) (l : Level) : (s.setCs d l).cfg = s.cfg :=
  by cases d <;> rfl
@[simp] theorem setCs_lifeXl (s : State) (d : Dev) (l : Level) : (s.setCs d l).lifeXl = s.lifeXl :=
  by cases d <;> rfl
@[simp] theorem setCs_lifeG (s : State) (d : Dev) (l : Level) : (s.setCs d l).lifeG = s.lifeG :=
  by cases d <;> rfl
@[simp] theorem setCs_lifeM (s : State) (d : Dev) (l : Level) : (s.setCs d l).lifeM = s.lifeM :=
  by cases d <;> rfl
@[simp] theorem setCs_settingsXl (s : State) (d : Dev) (l : Level) : (s.setCs d l).settingsXl = s.settingsXl :=
  by cases d <;> rfl
@[simp] theorem setCs_settingsG (s : State) (d : Dev) (l : Level) : (s.setCs d l).settingsG = s.settingsG :=
  by cases d <;> rfl
@[simp] theorem setCs_settingsM (s : State) (d : Dev) (l : Level) : (s.setCs d l).settingsM = s.settingsM :=
  by cases d <;> rfl
@[simp] theorem setCs_hist (s : State) (d : Dev) (l : Level) : (s.setCs d l).hist = s.hist :=
  by cases d <;> rfl
@[simp] theorem setCs_refused (s : State) (d : Dev) (l : Level) : (s.setCs d l).refused = s.refused :=
  by cases d <;> rfl
@[simp] theorem setCs_inbox (s : State) (d : Dev) (l : Level) : (s.setCs d l).inbox = s.inbox :=
  by cases d <;> rfl
@[simp] theorem setCs_reply (s : State) (d : Dev) (l : Level) : (s.setCs d l).reply = s.reply :=
  by cases d <;> rfl
@[simp] theorem setCs_waiting (s : State) (d : Dev) (l : Level) : (s.setCs d l).waiting = s.waiting :=
  by cases d <;> rfl
@[simp] theorem setCs_answers (s : State) (d : Dev) (l : Level) : (s.setCs d l).answers = s.answers :=
  by cases d <;> rfl
@[simp] theorem setCs_draws (s : State) (d : Dev) (l : Level) : (s.setCs d l).draws = s.draws :=
  by cases d <;> rfl

/-! ### `csSet` -/

@[simp] theorem csSet_cfg (s : State) (d : Dev) (l : Level) : (csSet d l s).cfg = s.cfg :=
  by cases d <;> rfl
@[simp] theorem csSet_lifeXl (s : State) (d : Dev) (l : Level) : (csSet d l s).lifeXl = s.lifeXl :=
  by cases d <;> rfl
@[simp] theorem csSet_lifeG (s : State) (d : Dev) (l : Level) : (csSet d l s).lifeG = s.lifeG :=
  by cases d <;> rfl
@[simp] theorem csSet_lifeM (s : State) (d : Dev) (l : Level) : (csSet d l s).lifeM = s.lifeM :=
  by cases d <;> rfl
@[simp] theorem csSet_settingsXl (s : State) (d : Dev) (l : Level) : (csSet d l s).settingsXl = s.settingsXl :=
  by cases d <;> rfl
@[simp] theorem csSet_settingsG (s : State) (d : Dev) (l : Level) : (csSet d l s).settingsG = s.settingsG :=
  by cases d <;> rfl
@[simp] theorem csSet_settingsM (s : State) (d : Dev) (l : Level) : (csSet d l s).settingsM = s.settingsM :=
  by cases d <;> rfl
@[simp] theorem csSet_hist (s : State) (d : Dev) (l : Level) : (csSet d l s).hist = s.hist ++ [.cs d l] :=
  by cases d <;> rfl
@[simp] theorem csSet_refused (s : State) (d : Dev) (l : Level) : (csSet d l s).refused = s.refused :=
  by cases d <;> rfl
@[simp] theorem csSet_inbox (s : State) (d : Dev) (l : Level) : (csSet d l s).inbox = s.inbox :=
  by cases d <;> rfl
@[simp] theorem csSet_reply (s : State) (d : Dev) (l : Level) : (csSet d l s).reply = s.reply :=
  by cases d <;> rfl
@[simp] theorem csSet_waiting (s : State) (d : Dev) (l : Level) : (csSet d l s).waiting = s.waiting :=
  by cases d <;> rfl
@[simp] theorem csSet_answers (s : State) (d : Dev) (l : Level) : (csSet d l s).answers = s.answers :=
  by cases d <;> rfl
@[simp] theorem csSet_draws (s : State) (d : Dev) (l : Level) : (csSet d l s).draws = s.draws :=
  by cases d <;> rfl

/-! ### `setLife` -/

@[simp] theorem setLife_cfg (s : State) (k : Sensor) (v : DriverState) : (s.setLife k v).cfg = s.cfg :=
  by cases k <;> rfl
@[simp] theorem setLife_csAg (s : State) (k : Sensor) (v : DriverState) : (s.setLife k v).csAg = s.csAg :=
  by cases k <;> rfl
@[simp] theorem setLife_csM (s : State) (k : Sensor) (v : DriverState) : (s.setLife k v).csM = s.csM :=
  by cases k <;> rfl
@[simp] theorem setLife_settingsXl (s : State) (k : Sensor) (v : DriverState) : (s.setLife k v).settingsXl = s.settingsXl :=
  by cases k <;> rfl
@[simp] theorem setLife_settingsG (s : State) (k : Sensor) (v : DriverState) : (s.setLife k v).settingsG = s.settingsG :=
  by cases k <;> rfl
@[simp] theorem setLife_settingsM (s : State) (k : Sensor) (v : DriverState) : (s.setLife k v).settingsM = s.settingsM :=
  by cases k <;> rfl
@[simp] theorem setLife_hist (s : State) (k : Sensor) (v : DriverState) : (s.setLife k v).hist = s.hist :=
  by cases k <;> rfl
@[simp] theorem setLife_refused (s : State) (k : Sensor) (v : DriverState) : (s.setLife k v).refused = s.refused :=
  by cases k <;> rfl
@[simp] theorem setLife_inbox (s : State) (k : Sensor) (v : DriverState) : (s.setLife k v).inbox = s.inbox :=
  by cases k <;> rfl
@[simp] theorem setLife_reply (s : State) (k : Sensor) (v : DriverState) : (s.setLife k v).reply = s.reply :=
  by cases k <;> rfl
@[simp] theorem setLife_waiting (s : State) (k : Sensor) (v : DriverState) : (s.setLife k v).waiting = s.waiting :=
  by cases k <;> rfl
@[simp] theorem setLife_answers (s : State) (k : Sensor) (v : DriverState) : (s.setLife k v).answers = s.answers :=
  by cases k <;> rfl
@[simp] theorem setLife_draws (s : State) (k : Sensor) (v : DriverState) : (s.setLife k v).draws = s.draws :=
  by cases k <;> rfl

/-! ### `store` -/

@[simp] theorem store_cfg (s : State) (r : Settings) : (s.store r).cfg = s.cfg := by cases r <;> rfl
@[simp] theorem store_csAg (s : State) (r : Settings) : (s.store r).csAg = s.csAg :=
  by cases r <;> rfl
@[simp] theorem store_csM (s : State) (r : Settings) : (s.store r).csM = s.csM := by cases r <;> rfl
@[simp] theorem store_lifeXl (s : State) (r : Settings) : (s.store r).lifeXl = s.lifeXl :=
  by cases r <;> rfl
@[simp] theorem store_lifeG (s : State) (r : Settings) : (s.store r).lifeG = s.lifeG :=
  by cases r <;> rfl
@[simp] theorem store_lifeM (s : State) (r : Settings) : (s.store r).lifeM = s.lifeM :=
  by cases r <;> rfl
@[simp] theorem store_hist (s : State) (r : Settings) : (s.store r).hist = s.hist :=
  by cases r <;> rfl
@[simp] theorem store_refused (s : State) (r : Settings) : (s.store r).refused = s.refused :=
  by cases r <;> rfl
@[simp] theorem store_inbox (s : State) (r : Settings) : (s.store r).inbox = s.inbox :=
  by cases r <;> rfl
@[simp] theorem store_reply (s : State) (r : Settings) : (s.store r).reply = s.reply :=
  by cases r <;> rfl
@[simp] theorem store_waiting (s : State) (r : Settings) : (s.store r).waiting = s.waiting :=
  by cases r <;> rfl
@[simp] theorem store_answers (s : State) (r : Settings) : (s.store r).answers = s.answers :=
  by cases r <;> rfl
@[simp] theorem store_draws (s : State) (r : Settings) : (s.store r).draws = s.draws :=
  by cases r <;> rfl

/-! ### `refuse` -/

@[simp] theorem refuse_cfg (s : State) (r : RefuseReason) : (s.refuse r).cfg = s.cfg := rfl
@[simp] theorem refuse_csAg (s : State) (r : RefuseReason) : (s.refuse r).csAg = s.csAg := rfl
@[simp] theorem refuse_csM (s : State) (r : RefuseReason) : (s.refuse r).csM = s.csM := rfl
@[simp] theorem refuse_lifeXl (s : State) (r : RefuseReason) : (s.refuse r).lifeXl = s.lifeXl := rfl
@[simp] theorem refuse_lifeG (s : State) (r : RefuseReason) : (s.refuse r).lifeG = s.lifeG := rfl
@[simp] theorem refuse_lifeM (s : State) (r : RefuseReason) : (s.refuse r).lifeM = s.lifeM := rfl
@[simp] theorem refuse_settingsXl (s : State) (r : RefuseReason) : (s.refuse r).settingsXl = s.settingsXl :=
  rfl
@[simp] theorem refuse_settingsG (s : State) (r : RefuseReason) : (s.refuse r).settingsG = s.settingsG :=
  rfl
@[simp] theorem refuse_settingsM (s : State) (r : RefuseReason) : (s.refuse r).settingsM = s.settingsM :=
  rfl
@[simp] theorem refuse_hist (s : State) (r : RefuseReason) : (s.refuse r).hist = s.hist := rfl
@[simp] theorem refuse_refused (s : State) (r : RefuseReason) : (s.refuse r).refused = true := rfl
@[simp] theorem refuse_inbox (s : State) (r : RefuseReason) : (s.refuse r).inbox = s.inbox := rfl
@[simp] theorem refuse_reply (s : State) (r : RefuseReason) : (s.refuse r).reply = some (.refused r) :=
  rfl
@[simp] theorem refuse_waiting (s : State) (r : RefuseReason) : (s.refuse r).waiting = s.waiting :=
  rfl
@[simp] theorem refuse_answers (s : State) (r : RefuseReason) : (s.refuse r).answers = s.answers :=
  rfl
@[simp] theorem refuse_draws (s : State) (r : RefuseReason) : (s.refuse r).draws = s.draws := rfl

/-! ### `takeDraw` -/

@[simp] theorem takeDraw_cfg (s : State) : (s.takeDraw).cfg = s.cfg := rfl
@[simp] theorem takeDraw_csAg (s : State) : (s.takeDraw).csAg = s.csAg := rfl
@[simp] theorem takeDraw_csM (s : State) : (s.takeDraw).csM = s.csM := rfl
@[simp] theorem takeDraw_lifeXl (s : State) : (s.takeDraw).lifeXl = s.lifeXl := rfl
@[simp] theorem takeDraw_lifeG (s : State) : (s.takeDraw).lifeG = s.lifeG := rfl
@[simp] theorem takeDraw_lifeM (s : State) : (s.takeDraw).lifeM = s.lifeM := rfl
@[simp] theorem takeDraw_settingsXl (s : State) : (s.takeDraw).settingsXl = s.settingsXl := rfl
@[simp] theorem takeDraw_settingsG (s : State) : (s.takeDraw).settingsG = s.settingsG := rfl
@[simp] theorem takeDraw_settingsM (s : State) : (s.takeDraw).settingsM = s.settingsM := rfl
@[simp] theorem takeDraw_hist (s : State) : (s.takeDraw).hist = s.hist := rfl
@[simp] theorem takeDraw_refused (s : State) : (s.takeDraw).refused = s.refused := rfl
@[simp] theorem takeDraw_inbox (s : State) : (s.takeDraw).inbox = s.inbox := rfl
@[simp] theorem takeDraw_reply (s : State) : (s.takeDraw).reply = s.reply := rfl
@[simp] theorem takeDraw_waiting (s : State) : (s.takeDraw).waiting = s.waiting := rfl
@[simp] theorem takeDraw_answers (s : State) : (s.takeDraw).answers = s.answers.tail := rfl
@[simp] theorem takeDraw_draws (s : State) : (s.takeDraw).draws = s.draws + 1 := rfl

/-! ### `take` -/

@[simp] theorem take_cfg (s : State) (rest : List Request) : (s.take rest).cfg = s.cfg := rfl
@[simp] theorem take_csAg (s : State) (rest : List Request) : (s.take rest).csAg = s.csAg := rfl
@[simp] theorem take_csM (s : State) (rest : List Request) : (s.take rest).csM = s.csM := rfl
@[simp] theorem take_lifeXl (s : State) (rest : List Request) : (s.take rest).lifeXl = s.lifeXl :=
  rfl
@[simp] theorem take_lifeG (s : State) (rest : List Request) : (s.take rest).lifeG = s.lifeG := rfl
@[simp] theorem take_lifeM (s : State) (rest : List Request) : (s.take rest).lifeM = s.lifeM := rfl
@[simp] theorem take_settingsXl (s : State) (rest : List Request) : (s.take rest).settingsXl = s.settingsXl :=
  rfl
@[simp] theorem take_settingsG (s : State) (rest : List Request) : (s.take rest).settingsG = s.settingsG :=
  rfl
@[simp] theorem take_settingsM (s : State) (rest : List Request) : (s.take rest).settingsM = s.settingsM :=
  rfl
@[simp] theorem take_hist (s : State) (rest : List Request) : (s.take rest).hist = s.hist := rfl
@[simp] theorem take_refused (s : State) (rest : List Request) : (s.take rest).refused = s.refused :=
  rfl
@[simp] theorem take_inbox (s : State) (rest : List Request) : (s.take rest).inbox = rest := rfl
@[simp] theorem take_reply (s : State) (rest : List Request) : (s.take rest).reply = s.reply := rfl
@[simp] theorem take_waiting (s : State) (rest : List Request) : (s.take rest).waiting = s.waiting :=
  rfl
@[simp] theorem take_answers (s : State) (rest : List Request) : (s.take rest).answers = s.answers :=
  rfl
@[simp] theorem take_draws (s : State) (rest : List Request) : (s.take rest).draws = s.draws := rfl

/-! ### `present` -/

@[simp] theorem present_cfg (s : State) (r : Request) : (s.present r).cfg = s.cfg := rfl
@[simp] theorem present_csAg (s : State) (r : Request) : (s.present r).csAg = s.csAg := rfl
@[simp] theorem present_csM (s : State) (r : Request) : (s.present r).csM = s.csM := rfl
@[simp] theorem present_lifeXl (s : State) (r : Request) : (s.present r).lifeXl = s.lifeXl := rfl
@[simp] theorem present_lifeG (s : State) (r : Request) : (s.present r).lifeG = s.lifeG := rfl
@[simp] theorem present_lifeM (s : State) (r : Request) : (s.present r).lifeM = s.lifeM := rfl
@[simp] theorem present_settingsXl (s : State) (r : Request) : (s.present r).settingsXl = s.settingsXl :=
  rfl
@[simp] theorem present_settingsG (s : State) (r : Request) : (s.present r).settingsG = s.settingsG :=
  rfl
@[simp] theorem present_settingsM (s : State) (r : Request) : (s.present r).settingsM = s.settingsM :=
  rfl
@[simp] theorem present_hist (s : State) (r : Request) : (s.present r).hist = s.hist := rfl
@[simp] theorem present_refused (s : State) (r : Request) : (s.present r).refused = s.refused := rfl
@[simp] theorem present_inbox (s : State) (r : Request) : (s.present r).inbox = r :: s.inbox := rfl
@[simp] theorem present_reply (s : State) (r : Request) : (s.present r).reply = s.reply := rfl
@[simp] theorem present_waiting (s : State) (r : Request) : (s.present r).waiting = s.waiting := rfl
@[simp] theorem present_answers (s : State) (r : Request) : (s.present r).answers = s.answers := rfl
@[simp] theorem present_draws (s : State) (r : Request) : (s.present r).draws = s.draws := rfl

/-! ### `finish` -/

@[simp] theorem finish_cfg (s : State) (r : Res Value) : (s.finish r).cfg = s.cfg :=
  by cases r <;> rfl
@[simp] theorem finish_csAg (s : State) (r : Res Value) : (s.finish r).csAg = s.csAg :=
  by cases r <;> rfl
@[simp] theorem finish_csM (s : State) (r : Res Value) : (s.finish r).csM = s.csM :=
  by cases r <;> rfl
@[simp] theorem finish_lifeXl (s : State) (r : Res Value) : (s.finish r).lifeXl = s.lifeXl :=
  by cases r <;> rfl
@[simp] theorem finish_lifeG (s : State) (r : Res Value) : (s.finish r).lifeG = s.lifeG :=
  by cases r <;> rfl
@[simp] theorem finish_lifeM (s : State) (r : Res Value) : (s.finish r).lifeM = s.lifeM :=
  by cases r <;> rfl
@[simp] theorem finish_settingsXl (s : State) (r : Res Value) : (s.finish r).settingsXl = s.settingsXl :=
  by cases r <;> rfl
@[simp] theorem finish_settingsG (s : State) (r : Res Value) : (s.finish r).settingsG = s.settingsG :=
  by cases r <;> rfl
@[simp] theorem finish_settingsM (s : State) (r : Res Value) : (s.finish r).settingsM = s.settingsM :=
  by cases r <;> rfl
@[simp] theorem finish_hist (s : State) (r : Res Value) : (s.finish r).hist = s.hist :=
  by cases r <;> rfl
@[simp] theorem finish_inbox (s : State) (r : Res Value) : (s.finish r).inbox = s.inbox :=
  by cases r <;> rfl
@[simp] theorem finish_waiting (s : State) (r : Res Value) : (s.finish r).waiting = s.waiting :=
  by cases r <;> rfl
@[simp] theorem finish_answers (s : State) (r : Res Value) : (s.finish r).answers = s.answers :=
  by cases r <;> rfl
@[simp] theorem finish_draws (s : State) (r : Res Value) : (s.finish r).draws = s.draws :=
  by cases r <;> rfl

/-! ### Accessors against updates -/

@[simp] theorem setCs_cs_self (s : State) (d : Dev) (l : Level) : (s.setCs d l).cs d = l := by
  cases d <;> rfl

theorem setCs_cs_other (s : State) {d d' : Dev} (l : Level) (h : d' ≠ d) :
    (s.setCs d l).cs d' = s.cs d' := by
  cases d <;> cases d' <;> first | rfl | exact absurd rfl h

@[simp] theorem csSet_cs_self (s : State) (d : Dev) (l : Level) : (csSet d l s).cs d = l := by
  cases d <;> rfl

theorem csSet_cs_other (s : State) {d d' : Dev} (l : Level) (h : d' ≠ d) :
    (csSet d l s).cs d' = s.cs d' := by
  cases d <;> cases d' <;> first | rfl | exact absurd rfl h

@[simp] theorem setLife_life_self (s : State) (k : Sensor) (v : DriverState) :
    (s.setLife k v).life k = v := by
  cases k <;> rfl

theorem setLife_life_other (s : State) {k k' : Sensor} (v : DriverState) (h : k' ≠ k) :
    (s.setLife k v).life k' = s.life k' := by
  cases k <;> cases k' <;> first | rfl | exact absurd rfl h

@[simp] theorem store_settings_self (s : State) (r : Settings) :
    (s.store r).settings (sensorOf r) = some r := by
  cases r <;> rfl

theorem store_settings_other (s : State) (r : Settings) {k : Sensor} (h : k ≠ sensorOf r) :
    (s.store r).settings k = s.settings k := by
  cases r <;> cases k <;> first | rfl | exact absurd rfl h

@[simp] theorem setLife_settings (s : State) (k k' : Sensor) (v : DriverState) :
    (s.setLife k v).settings k' = s.settings k' := by
  cases k <;> cases k' <;> rfl

@[simp] theorem store_life (s : State) (r : Settings) (k : Sensor) :
    (s.store r).life k = s.life k := by
  cases r <;> cases k <;> rfl

/-! ### Two states that agree on the fields an accessor reads -/

theorem life_congr {s t : State} (hx : t.lifeXl = s.lifeXl) (hg : t.lifeG = s.lifeG)
    (hm : t.lifeM = s.lifeM) (k : Sensor) : t.life k = s.life k := by
  cases k <;> assumption

theorem settings_congr {s t : State} (hx : t.settingsXl = s.settingsXl)
    (hg : t.settingsG = s.settingsG) (hm : t.settingsM = s.settingsM) (k : Sensor) :
    t.settings k = s.settings k := by
  cases k <;> simp [State.settings, *]

/-! ### The end of a command -/

@[simp] theorem finish_reply_ok (s : State) (v : Value) : (s.finish (.ok v)).reply = some (.ok v) := rfl

@[simp] theorem finish_reply_err (s : State) (e : Err) : (s.finish (.err e)).reply = some (.err e) := rfl

theorem finish_refused_of_not_refusal (s : State) (r : Res Value) (h : ∀ q, r ≠ .refused q) :
    (s.finish r).refused = s.refused := by
  cases r <;> first | rfl | exact absurd rfl (h _)

end Sys2Proof.Machine
end

