-- ==== Sys2Proof/Laws/Bus.lean ====
section
/-! SUPPORT. What each bus primitive and each register-level primitive does, once for all: with an
answer, without one, and where the magnetometer is out of reach. Later proofs cite these lemmas and do
not unfold the primitives. -/

namespace Sys2Proof.Machine

/-! ### Answers -/

/-- The oracle's answer as the event records it; `none` is no answer. -/
def ansOf : Draw → Option (Ans (List Byte))
  | .ok inb => some (.ok inb)
  | .fail => some .fail
  | .noAnswer => none

theorem nextDraw_congr {s t : State} (ha : t.answers = s.answers) (hd : t.draws = s.draws) :
    t.nextDraw = s.nextDraw := by
  simp [State.nextDraw, ha, hd]

@[simp] theorem csSet_nextDraw (d : Dev) (l : Level) (s : State) :
    (csSet d l s).nextDraw = s.nextDraw := nextDraw_congr (by simp) (by simp)

/-- The state in which the block hangs on `call`. -/
def State.hungOn (s : State) (call : BusCall) : State := { s.takeDraw with waiting := some call }

/-! ### `busDone` -/

/-- One operation's own updates are `busDone` with one answer. -/
theorem serial_busDone (d : Dev) (s : State) (out : List Byte) (a : Ans (List Byte))
    (h : s.cfg.kind = .serial) :
    csSet d .high ((csSet d .low s).takeDraw.emit (.xfer out a)) =
      s.busDone d 1 [.cs d .low, .xfer out a, .cs d .high] := by
  cases d <;>
    simp [State.busDone, h, csSet, State.setCs, State.emit, State.takeDraw]

theorem addressed_busDone (d : Dev) (s : State) (e : BusEvent) (h : s.cfg.kind = .addressed) :
    s.takeDraw.emit e = s.busDone d 1 [e] := by
  simp [State.busDone, h, State.emit, State.takeDraw]

@[simp] theorem busDone_cfg (s : State) (d : Dev) (n : Nat) (es : List BusEvent) :
    (s.busDone d n es).cfg = s.cfg := by
  unfold State.busDone; split <;> rfl

@[simp] theorem busDone_lifeXl (s : State) (d : Dev) (n : Nat) (es : List BusEvent) :
    (s.busDone d n es).lifeXl = s.lifeXl := by
  unfold State.busDone; split <;> rfl

@[simp] theorem busDone_lifeG (s : State) (d : Dev) (n : Nat) (es : List BusEvent) :
    (s.busDone d n es).lifeG = s.lifeG := by
  unfold State.busDone; split <;> rfl

@[simp] theorem busDone_lifeM (s : State) (d : Dev) (n : Nat) (es : List BusEvent) :
    (s.busDone d n es).lifeM = s.lifeM := by
  unfold State.busDone; split <;> rfl

@[simp] theorem busDone_settingsXl (s : State) (d : Dev) (n : Nat) (es : List BusEvent) :
    (s.busDone d n es).settingsXl = s.settingsXl := by
  unfold State.busDone; split <;> rfl

@[simp] theorem busDone_settingsG (s : State) (d : Dev) (n : Nat) (es : List BusEvent) :
    (s.busDone d n es).settingsG = s.settingsG := by
  unfold State.busDone; split <;> rfl

@[simp] theorem busDone_settingsM (s : State) (d : Dev) (n : Nat) (es : List BusEvent) :
    (s.busDone d n es).settingsM = s.settingsM := by
  unfold State.busDone; split <;> rfl

@[simp] theorem busDone_hist (s : State) (d : Dev) (n : Nat) (es : List BusEvent) :
    (s.busDone d n es).hist = s.hist ++ es := by
  unfold State.busDone; split <;> rfl

@[simp] theorem busDone_refused (s : State) (d : Dev) (n : Nat) (es : List BusEvent) :
    (s.busDone d n es).refused = s.refused := by
  unfold State.busDone; split <;> rfl

@[simp] theorem busDone_inbox (s : State) (d : Dev) (n : Nat) (es : List BusEvent) :
    (s.busDone d n es).inbox = s.inbox := by
  unfold State.busDone; split <;> rfl

@[simp] theorem busDone_reply (s : State) (d : Dev) (n : Nat) (es : List BusEvent) :
    (s.busDone d n es).reply = s.reply := by
  unfold State.busDone; split <;> rfl

@[simp] theorem busDone_waiting (s : State) (d : Dev) (n : Nat) (es : List BusEvent) :
    (s.busDone d n es).waiting = s.waiting := by
  unfold State.busDone; split <;> rfl

@[simp] theorem busDone_answers (s : State) (d : Dev) (n : Nat) (es : List BusEvent) :
    (s.busDone d n es).answers = s.answers.drop n := by
  unfold State.busDone; split <;> rfl

@[simp] theorem busDone_draws (s : State) (d : Dev) (n : Nat) (es : List BusEvent) :
    (s.busDone d n es).draws = s.draws + n := by
  unfold State.busDone; split <;> rfl

@[simp] theorem busDone_life (s : State) (d : Dev) (n : Nat) (es : List BusEvent) (k : Sensor) :
    (s.busDone d n es).life k = s.life k := life_congr (by simp) (by simp) (by simp) k

@[simp] theorem busDone_settings (s : State) (d : Dev) (n : Nat) (es : List BusEvent) (k : Sensor) :
    (s.busDone d n es).settings k = s.settings k :=
  settings_congr (by simp) (by simp) (by simp) k

theorem busDone_cs_other (s : State) {d d' : Dev} (n : Nat) (es : List BusEvent) (h : d' ≠ d) :
    (s.busDone d n es).cs d' = s.cs d' := by
  unfold State.busDone
  split <;> cases d' <;> first | rfl | exact absurd rfl h

theorem busDone_cs_self (s : State) (d : Dev) (n : Nat) (es : List BusEvent)
    (h : s.cfg.kind = .serial) : (s.busDone d n es).cs d = .high := by
  unfold State.busDone
  cases d <;> simp [h, State.cs]

/-- Operations on one device follow one another. -/
theorem busDone_busDone (s : State) (d : Dev) (m n : Nat) (es fs : List BusEvent) :
    (s.busDone d m es).busDone d n fs = s.busDone d (m + n) (es ++ fs) := by
  cases h : s.cfg.kind <;> cases d <;>
    simp [State.busDone, h, List.append_assoc, Nat.add_assoc]

theorem busDone_nextDraw (s : State) (d : Dev) (es : List BusEvent) :
    (s.busDone d 1 es).nextDraw = s.takeDraw.nextDraw := nextDraw_congr (by simp) (by simp)

theorem takeDraw_congr_nextDraws {s t : State} (ha : t.answers = s.answers)
    (hd : t.draws = s.draws) (ds : List Draw) : t.nextDraws ds ↔ s.nextDraws ds := by
  induction ds generalizing s t with
  | nil => simp [State.nextDraws]
  | cons d ds ih =>
    simp only [State.nextDraws, nextDraw_congr ha hd]
    rw [ih (t := t.takeDraw) (s := s.takeDraw) (by simp [ha]) (by simp [hd])]

theorem busDone_nextDraws (s : State) (d : Dev) (es : List BusEvent) (ds : List Draw) :
    (s.busDone d 1 es).nextDraws ds ↔ s.takeDraw.nextDraws ds :=
  takeDraw_congr_nextDraws (by simp) (by simp) ds

/-! ### One serial operation under its chip-select (R111, R113) -/

theorem underCs_answer {d : Dev} {out : List Byte} {s : State} {a : Ans (List Byte)}
    (hk : s.cfg.kind = .serial) (h : ansOf s.nextDraw = some a) :
    underCs d out s = (.answer a, s.busDone d 1 [.cs d .low, .xfer out a, .cs d .high]) := by
  cases hd : s.nextDraw <;> rw [hd] at h <;> cases h <;>
    simp [underCs, spiXfer, hd, serial_busDone _ _ _ _ hk]

theorem underCs_hang {d : Dev} {out : List Byte} {s : State} (h : s.nextDraw = .noAnswer) :
    underCs d out s = (.hang, (csSet d .low s).hungOn (.xfer out)) := by
  simp [underCs, spiXfer, h, State.hungOn]

/-! ### `MemWrite` and `MemRead` -/

/-- The end of a write whose answer is `a` (R112, R121). -/
def writeEnd (c : Cfg) (d : Dev) (reg : Byte) (n : Nat) : Ans (List Byte) → Res Unit
  | .ok inb => if writeOk c n (.ok inb) then .ok () else .err (.busError .write d reg)
  | .fail => .err (.busError .write d reg)

/-- The end of a read whose answer is `a` (R115, R124). -/
def readEnd (c : Cfg) (d : Dev) (reg : Byte) (n : Nat) : Ans (List Byte) → Res (List Byte)
  | .ok inb =>
    if readOk c n (.ok inb) then
      .ok (match c.kind with
        | .serial => inb.drop 1
        | .addressed => inb)
    else .err (.busError .read d reg)
  | .fail => .err (.busError .read d reg)

theorem memWrite_answer {d : Dev} {reg : Byte} {data : List Byte} {s : State}
    {a : Ans (List Byte)} (hd : unimplemented s.cfg.kind d = false)
    (h : ansOf s.nextDraw = some a) :
    memWrite d reg data s =
      (writeEnd s.cfg d reg data.length a, s.busDone d 1 (writeEvents s.cfg d reg data a)) := by
  cases hk : s.cfg.kind with
  | serial =>
    simp only [memWrite, hk, spiWrite, underCs_answer hk h, writeEvents]
    cases a with
    | fail => simp [Got.judge, judgeSpiWrite, writeEnd]
    | ok inb =>
      by_cases hl : inb.length = data.length + 1 <;>
        simp [Got.judge, judgeSpiWrite, writeEnd, writeOk, hk, spiWriteOut, hl]
  | addressed =>
    cases d with
    | m => simp [unimplemented, hk] at hd
    | ag =>
      cases hn : s.nextDraw <;> rw [hn] at h <;> cases h <;>
        simp [memWrite, hk, i2cWrite, i2cWriteCall, hn, Got.judge, judgeI2cWrite, writeEnd, writeOk,
          writeEvents, addressed_busDone .ag _ _ hk]

theorem memRead_answer {d : Dev} {reg : Byte} {n : Nat} {s : State} {a : Ans (List Byte)}
    (hd : unimplemented s.cfg.kind d = false) (h : ansOf s.nextDraw = some a) :
    memRead d reg n s = (readEnd s.cfg d reg n a, s.busDone d 1 (readEvents s.cfg d reg n a)) := by
  cases hk : s.cfg.kind with
  | serial =>
    simp only [memRead, hk, spiRead, underCs_answer hk h, readEvents]
    cases a <;> simp [Got.judge, judgeSpiRead, readEnd, readOk, hk]
  | addressed =>
    cases d with
    | m => simp [unimplemented, hk] at hd
    | ag =>
      cases hn : s.nextDraw <;> rw [hn] at h <;> cases h <;>
        simp [memRead, hk, i2cRead, i2cWriteReadCall, hn, Got.judge, judgeI2cRead, readEnd, readOk,
          readEvents, addressed_busDone .ag _ _ hk]

/-- The state in which the block hangs on the transfer of a write (R367). -/
def State.writeHung (s : State) (d : Dev) (reg : Byte) (data : List Byte) : State :=
  match s.cfg.kind with
  | .serial => (csSet d .low s).hungOn (.xfer (spiWriteOut d reg data))
  | .addressed => s.hungOn (.iwr s.cfg.agAddr (reg :: data))

/-- The state in which the block hangs on the transfer of a read (R367). -/
def State.readHung (s : State) (d : Dev) (reg : Byte) (n : Nat) : State :=
  match s.cfg.kind with
  | .serial => (csSet d .low s).hungOn (.xfer (spiReadOut d reg n))
  | .addressed => s.hungOn (.iwrrd s.cfg.agAddr [reg] n)

theorem memWrite_hang {d : Dev} {reg : Byte} {data : List Byte} {s : State}
    (hd : unimplemented s.cfg.kind d = false) (h : s.nextDraw = .noAnswer) :
    memWrite d reg data s = (.hang, s.writeHung d reg data) := by
  cases hk : s.cfg.kind with
  | serial => simp [memWrite, hk, spiWrite, underCs_hang h, Got.judge, State.writeHung]
  | addressed =>
    cases d with
    | m => simp [unimplemented, hk] at hd
    | ag => simp [memWrite, hk, i2cWrite, i2cWriteCall, h, Got.judge, State.writeHung, State.hungOn]

theorem memRead_hang {d : Dev} {reg : Byte} {n : Nat} {s : State}
    (hd : unimplemented s.cfg.kind d = false) (h : s.nextDraw = .noAnswer) :
    memRead d reg n s = (.hang, s.readHung d reg n) := by
  cases hk : s.cfg.kind with
  | serial => simp [memRead, hk, spiRead, underCs_hang h, Got.judge, State.readHung]
  | addressed =>
    cases d with
    | m => simp [unimplemented, hk] at hd
    | ag =>
      simp [memRead, hk, i2cRead, i2cWriteReadCall, h, Got.judge, State.readHung, State.hungOn]

theorem memWrite_unimplemented {d : Dev} {reg : Byte} {data : List Byte} {s : State}
    (hd : unimplemented s.cfg.kind d = true) :
    memWrite d reg data s = (.refused .unimplemented, s) := by
  cases hk : s.cfg.kind <;> cases d <;> simp [unimplemented, hk] at hd
  simp [memWrite, hk, i2cWrite]

theorem memRead_unimplemented {d : Dev} {reg : Byte} {n : Nat} {s : State}
    (hd : unimplemented s.cfg.kind d = true) :
    memRead d reg n s = (.refused .unimplemented, s) := by
  cases hk : s.cfg.kind <;> cases d <;> simp [unimplemented, hk] at hd
  simp [memRead, hk, i2cRead]

/-- On a serial block the register-level write is the serial one (R110). -/
theorem memWrite_serial {s : State} (hk : s.cfg.kind = .serial) (d : Dev) (reg : Byte)
    (data : List Byte) : memWrite d reg data s = spiWrite d reg data s := by
  simp [memWrite, hk]

/-- On a serial block the register-level read is the serial one (R110). -/
theorem memRead_serial {s : State} (hk : s.cfg.kind = .serial) (d : Dev) (reg : Byte) (n : Nat) :
    memRead d reg n s = spiRead d reg n s := by
  simp [memRead, hk]

/-- On an addressed block the register-level write is the addressed one (R110). -/
theorem memWrite_addressed {s : State} (hk : s.cfg.kind = .addressed) (d : Dev) (reg : Byte)
    (data : List Byte) : memWrite d reg data s = i2cWrite d reg data s := by
  simp [memWrite, hk]

/-- On an addressed block the register-level read is the addressed one (R110). -/
theorem memRead_addressed {s : State} (hk : s.cfg.kind = .addressed) (d : Dev) (reg : Byte)
    (n : Nat) : memRead d reg n s = i2cRead d reg n s := by
  simp [memRead, hk]

/-! ### The hung states -/

@[simp] theorem hungOn_waiting (s : State) (c : BusCall) : (s.hungOn c).waiting = some c := rfl

@[simp] theorem hungOn_cfg (s : State) (c : BusCall) : (s.hungOn c).cfg = s.cfg := rfl

@[simp] theorem hungOn_life (s : State) (c : BusCall) (k : Sensor) :
    (s.hungOn c).life k = s.life k := by cases k <;> rfl

@[simp] theorem hungOn_settings (s : State) (c : BusCall) (k : Sensor) :
    (s.hungOn c).settings k = s.settings k := by cases k <;> rfl

@[simp] theorem hungOn_hist (s : State) (c : BusCall) : (s.hungOn c).hist = s.hist := rfl

@[simp] theorem hungOn_cs (s : State) (c : BusCall) (d : Dev) : (s.hungOn c).cs d = s.cs d := by
  cases d <;> rfl

@[simp] theorem hungOn_refused (s : State) (c : BusCall) : (s.hungOn c).refused = s.refused := rfl

@[simp] theorem hungOn_inbox (s : State) (c : BusCall) : (s.hungOn c).inbox = s.inbox := rfl

@[simp] theorem hungOn_reply (s : State) (c : BusCall) : (s.hungOn c).reply = s.reply := rfl

@[simp] theorem csSet_life (d : Dev) (l : Level) (s : State) (k : Sensor) :
    (csSet d l s).life k = s.life k := by cases d <;> cases k <;> rfl

@[simp] theorem csSet_settings (d : Dev) (l : Level) (s : State) (k : Sensor) :
    (csSet d l s).settings k = s.settings k := by cases d <;> cases k <;> rfl

/-! ### A list of single-byte writes (R262) -/

/-- Every write succeeds: all the events, and nothing else changed. -/
theorem writeAll_ok {d : Dev} {s : State} (hd : unimplemented s.cfg.kind d = false) :
    ∀ {ws : List RegEntry} {inbs : List (List Byte)}, inbs.length = ws.length →
      s.nextDraws (inbs.map .ok) → (∀ i ∈ inbs, writeOk s.cfg 1 (.ok i) = true) →
      writeAll d ws s = (.ok (), s.busDone d ws.length (writesEvents s.cfg d ws inbs)) ∨ ws = [] := by
  intro ws
  induction ws generalizing s with
  | nil => intros; exact .inr rfl
  | cons w ws ih =>
    intro inbs hl hn ho
    cases inbs with
    | nil => simp at hl
    | cons i is =>
      refine .inl ?_
      obtain ⟨h1, h2⟩ := hn
      have hw : memWrite d w.reg [w.value] s =
          (.ok (), s.busDone d 1 (writeEvents s.cfg d w.reg [w.value] (.ok i))) := by
        rw [memWrite_answer hd (a := .ok i) (by rw [h1]; rfl)]
        simp [writeEnd, ho i (by simp)]
      simp only [writeAll, hw]
      have hrest := ih (s := s.busDone d 1 (writeEvents s.cfg d w.reg [w.value] (.ok i)))
        (by simpa using hd) (inbs := is) (by simpa using hl)
        ((busDone_nextDraws _ _ _ _).2 h2)
        (fun j hj => by simpa using ho j (List.mem_cons_of_mem _ hj))
      rcases hrest with hrest | rfl
      · rw [hrest, busDone_busDone]
        simp [writesEvents, Nat.add_comm]
      · cases is with
        | nil => simp [writeAll, writesEvents]
        | cons _ _ => simp at hl

end Sys2Proof.Machine
end

