-- ==== Sys2Proof/Laws/Frame.lean ====
section
/-! SUPPORT. What transport operations leave unchanged, and every way in which a register-level primitive
and a list of writes can end. -/

namespace Sys2Proof.Machine

/-- What transport operations on device `d` leave unchanged (40_transport.md R111, R128). -/
structure BusFrame (d : Dev) (s t : State) : Prop where
  cfg : t.cfg = s.cfg
  life : ∀ k, t.life k = s.life k
  settings : ∀ k, t.settings k = s.settings k
  inbox : t.inbox = s.inbox
  refused : t.refused = s.refused
  csOther : ∀ d', d' ≠ d → t.cs d' = s.cs d'
  hist : s.hist <+: t.hist

namespace BusFrame

theorem refl (d : Dev) (s : State) : BusFrame d s s :=
  ⟨rfl, fun _ => rfl, fun _ => rfl, rfl, rfl, fun _ _ => rfl, List.prefix_refl _⟩

theorem trans {d : Dev} {s t u : State} (h : BusFrame d s t) (h' : BusFrame d t u) :
    BusFrame d s u where
  cfg := h'.cfg.trans h.cfg
  life k := (h'.life k).trans (h.life k)
  settings k := (h'.settings k).trans (h.settings k)
  inbox := h'.inbox.trans h.inbox
  refused := h'.refused.trans h.refused
  csOther d' hd := (h'.csOther d' hd).trans (h.csOther d' hd)
  hist := h.hist.trans h'.hist

theorem busDone (s : State) (d : Dev) (n : Nat) (es : List BusEvent) :
    BusFrame d s (s.busDone d n es) where
  cfg := busDone_cfg ..
  life k := busDone_life ..
  settings k := busDone_settings ..
  inbox := busDone_inbox ..
  refused := busDone_refused ..
  csOther _ h := busDone_cs_other _ _ _ h
  hist := by simp

theorem csSet (d : Dev) (l : Level) (s : State) : BusFrame d s (csSet d l s) where
  cfg := csSet_cfg ..
  life k := csSet_life ..
  settings k := csSet_settings ..
  inbox := csSet_inbox ..
  refused := csSet_refused ..
  csOther _ h := csSet_cs_other _ _ h
  hist := by simp

theorem hungOn (d : Dev) (s : State) (c : BusCall) : BusFrame d s (s.hungOn c) where
  cfg := rfl
  life := hungOn_life s c
  settings := hungOn_settings s c
  inbox := rfl
  refused := rfl
  csOther _ _ := hungOn_cs ..
  hist := List.prefix_refl _

theorem writeHung (s : State) (d : Dev) (reg : Byte) (data : List Byte) :
    BusFrame d s (s.writeHung d reg data) := by
  unfold State.writeHung
  split
  · exact (csSet d .low s).trans (hungOn ..)
  · exact hungOn ..

theorem readHung (s : State) (d : Dev) (reg : Byte) (n : Nat) :
    BusFrame d s (s.readHung d reg n) := by
  unfold State.readHung
  split
  · exact (csSet d .low s).trans (hungOn ..)
  · exact hungOn ..

end BusFrame

/-! ### Every way a register-level primitive can end -/

theorem memWrite_cases (d : Dev) (reg : Byte) (data : List Byte) (s : State) :
    (unimplemented s.cfg.kind d = true ∧ memWrite d reg data s = (.refused .unimplemented, s)) ∨
    (unimplemented s.cfg.kind d = false ∧ s.nextDraw = .noAnswer ∧
      memWrite d reg data s = (.hang, s.writeHung d reg data)) ∨
    (unimplemented s.cfg.kind d = false ∧ ∃ a, ansOf s.nextDraw = some a ∧
      memWrite d reg data s =
        (writeEnd s.cfg d reg data.length a, s.busDone d 1 (writeEvents s.cfg d reg data a))) := by
  cases hd : unimplemented s.cfg.kind d with
  | true => exact .inl ⟨rfl, memWrite_unimplemented hd⟩
  | false =>
    cases ha : s.nextDraw with
    | noAnswer => exact .inr (.inl ⟨rfl, rfl, memWrite_hang hd ha⟩)
    | ok inb => exact .inr (.inr ⟨rfl, _, rfl, memWrite_answer hd (by rw [ha]; rfl)⟩)
    | fail => exact .inr (.inr ⟨rfl, _, rfl, memWrite_answer hd (by rw [ha]; rfl)⟩)

theorem memRead_cases (d : Dev) (reg : Byte) (n : Nat) (s : State) :
    (unimplemented s.cfg.kind d = true ∧ memRead d reg n s = (.refused .unimplemented, s)) ∨
    (unimplemented s.cfg.kind d = false ∧ s.nextDraw = .noAnswer ∧
      memRead d reg n s = (.hang, s.readHung d reg n)) ∨
    (unimplemented s.cfg.kind d = false ∧ ∃ a, ansOf s.nextDraw = some a ∧
      memRead d reg n s =
        (readEnd s.cfg d reg n a, s.busDone d 1 (readEvents s.cfg d reg n a))) := by
  cases hd : unimplemented s.cfg.kind d with
  | true => exact .inl ⟨rfl, memRead_unimplemented hd⟩
  | false =>
    cases ha : s.nextDraw with
    | noAnswer => exact .inr (.inl ⟨rfl, rfl, memRead_hang hd ha⟩)
    | ok inb => exact .inr (.inr ⟨rfl, _, rfl, memRead_answer hd (by rw [ha]; rfl)⟩)
    | fail => exact .inr (.inr ⟨rfl, _, rfl, memRead_answer hd (by rw [ha]; rfl)⟩)

theorem writeEnd_cases (c : Cfg) (d : Dev) (reg : Byte) (n : Nat) (a : Ans (List Byte)) :
    writeEnd c d reg n a = .ok () ∨ writeEnd c d reg n a = .err (.busError .write d reg) := by
  cases a with
  | fail => exact .inr rfl
  | ok inb => unfold writeEnd; split <;> simp

theorem readEnd_cases (c : Cfg) (d : Dev) (reg : Byte) (n : Nat) (a : Ans (List Byte)) :
    (∃ b, readEnd c d reg n a = .ok b ∧ b.length = n) ∨
      readEnd c d reg n a = .err (.busError .read d reg) := by
  cases a with
  | fail => exact .inr rfl
  | ok inb =>
    by_cases h : readOk c n (.ok inb) = true
    · cases hk : c.kind
      · exact .inl ⟨inb.drop 1, by simp only [readEnd, if_pos h, hk], by simp_all [readOk]⟩
      · exact .inl ⟨inb, by simp only [readEnd, if_pos h, hk], by simp_all [readOk]⟩
    · exact .inr (by simp only [readEnd, if_neg h])

theorem memWrite_frame (d : Dev) (reg : Byte) (data : List Byte) (s : State) :
    BusFrame d s (memWrite d reg data s).2 := by
  obtain ⟨-, h⟩ | ⟨-, -, h⟩ | ⟨-, a, -, h⟩ := memWrite_cases d reg data s <;> rw [h]
  · exact .refl d s
  · exact .writeHung ..
  · exact .busDone ..

theorem memRead_frame (d : Dev) (reg : Byte) (n : Nat) (s : State) :
    BusFrame d s (memRead d reg n s).2 := by
  obtain ⟨-, h⟩ | ⟨-, -, h⟩ | ⟨-, a, -, h⟩ := memRead_cases d reg n s <;> rw [h]
  · exact .refl d s
  · exact .readHung ..
  · exact .busDone ..

/-! ### Reading a sample -/

theorem sample1_length {b : List Byte} (h : b.length = 2) : ∃ v, sample1 b = some v := by
  obtain ⟨lo, hi, rfl⟩ := List.length_eq_two.1 h
  exact ⟨_, rfl⟩

theorem sample3_length {b : List Byte} (h : b.length = 6) : ∃ v, sample3 b = some v := by
  match b, h with
  | [_, _, _, _, _, _], _ => exact ⟨_, rfl⟩

/-- Every way in which reading a sample can end, for a `sample` that is defined on `n` bytes (R226). -/
theorem readSample_cases {α : Type} (d : Dev) (reg : Byte) (n : Nat) {sample : List Byte → Option α}
    (hs : ∀ b, b.length = n → ∃ v, sample b = some v) (s : State) :
    (unimplemented s.cfg.kind d = true ∧
      readSample d reg n sample s = (.refused .unimplemented, s)) ∨
    (unimplemented s.cfg.kind d = false ∧ s.nextDraw = .noAnswer ∧
      readSample d reg n sample s = (.hang, s.readHung d reg n)) ∨
    (unimplemented s.cfg.kind d = false ∧ ∃ a, ansOf s.nextDraw = some a ∧
      ((∃ b v, readEnd s.cfg d reg n a = .ok b ∧ sample b = some v ∧
        readSample d reg n sample s = (.ok v, s.busDone d 1 (readEvents s.cfg d reg n a))) ∨
       (readEnd s.cfg d reg n a = .err (.busError .read d reg) ∧
        readSample d reg n sample s =
          (.err (.busError .read d reg), s.busDone d 1 (readEvents s.cfg d reg n a))))) := by
  obtain ⟨hd, h⟩ | ⟨hd, hn, h⟩ | ⟨hd, a, ha, h⟩ := memRead_cases d reg n s
  · exact .inl ⟨hd, by simp only [readSample, h]⟩
  · exact .inr (.inl ⟨hd, hn, by simp only [readSample, h]⟩)
  · refine .inr (.inr ⟨hd, a, ha, ?_⟩)
    obtain ⟨b, hb, hl⟩ | hb := readEnd_cases s.cfg d reg n a <;> rw [hb] at h
    · obtain ⟨v, hv⟩ := hs b hl
      exact .inl ⟨b, v, hb, hv, by simp only [readSample, h, hv]⟩
    · exact .inr ⟨hb, by simp only [readSample, h]⟩

theorem readSample_frame {α : Type} (d : Dev) (reg : Byte) (n : Nat)
    (sample : List Byte → Option α) (s : State) :
    BusFrame d s (readSample d reg n sample s).2 := by
  have hf := memRead_frame d reg n s
  rcases hm : memRead d reg n s with ⟨r, s'⟩
  rw [hm] at hf
  cases r <;> simp only [readSample, hm] <;> try exact hf
  split <;> exact hf

/-! ### A list of writes -/

/-- A list of writes is its first part, and then, if that succeeded, the rest. -/
theorem writeAll_append (d : Dev) (pre post : List RegEntry) (s : State) :
    writeAll d (pre ++ post) s =
      (match writeAll d pre s with
       | (.ok (), s') => writeAll d post s'
       | (r, s') => (r, s')) := by
  induction pre generalizing s with
  | nil => simp [writeAll]
  | cons e es ih =>
    simp only [List.cons_append, writeAll]
    rcases hm : memWrite d e.reg [e.value] s with ⟨r, s'⟩
    cases r <;> simp [ih]

theorem writeAll_frame (d : Dev) (ws : List RegEntry) (s : State) :
    BusFrame d s (writeAll d ws s).2 := by
  induction ws generalizing s with
  | nil => exact .refl d s
  | cons e es ih =>
    have hf := memWrite_frame d e.reg [e.value] s
    simp only [writeAll]
    rcases hm : memWrite d e.reg [e.value] s with ⟨r, s'⟩
    rw [hm] at hf
    cases r with
    | ok v => exact hf.trans (ih s')
    | _ => exact hf

theorem wholeOp_write {c : Cfg} {d : Dev} (hd : unimplemented c.kind d = false) (reg : Byte)
    {data : List Byte} (hn : data ≠ []) (a : Ans (List Byte)) :
    WholeOp c (writeEvents c d reg data a) := by
  refine ⟨d, reg, a, ?_, .inl ⟨data, hn, rfl⟩⟩
  intro hk
  cases d <;> simp_all [unimplemented]

theorem wholeOp_read {c : Cfg} {d : Dev} (hd : unimplemented c.kind d = false) (reg : Byte) {n : Nat}
    (hn : n ≠ 0) (a : Ans (List Byte)) : WholeOp c (readEvents c d reg n a) := by
  refine ⟨d, reg, a, ?_, .inr ⟨n, hn, rfl⟩⟩
  intro hk
  cases d <;> simp_all [unimplemented]

/-- How a nonempty list of writes ends (R262): all done, one failed, or one with no answer; every
operation before that is whole. -/
theorem writeAll_ends {d : Dev} {ws : List RegEntry} {s : State}
    (hd : unimplemented s.cfg.kind d = false) (hne : ws ≠ []) :
    ∃ (n : Nat) (ops : List (List BusEvent)), (∀ o ∈ ops, WholeOp s.cfg o) ∧
      (writeAll d ws s = (.ok (), s.busDone d n ops.flatten) ∨
       (∃ w ∈ ws, writeAll d ws s =
         (.err (.busError .write d w.reg), s.busDone d n ops.flatten)) ∨
       (∃ w ∈ ws, ∃ s', writeAll d ws s = (.hang, s'.writeHung d w.reg [w.value]) ∧
         (s' = s ∧ n = 0 ∧ ops = [] ∨ s' = s.busDone d n ops.flatten))) := by
  induction ws generalizing s with
  | nil => exact absurd rfl hne
  | cons w ws ih =>
    obtain ⟨h, -⟩ | ⟨-, -, h⟩ | ⟨-, a, -, h⟩ := memWrite_cases d w.reg [w.value] s
    · rw [hd] at h; cases h
    · refine ⟨0, [], by simp, .inr (.inr ⟨w, by simp, s, ?_, .inl ⟨rfl, rfl, rfl⟩⟩)⟩
      simp [writeAll, h]
    · have hw := wholeOp_write hd w.reg (data := [w.value]) (by simp) a
      obtain he | he := writeEnd_cases s.cfg d w.reg [w.value].length a <;> rw [he] at h
      · by_cases hws : ws = []
        · subst hws
          exact ⟨1, [_], by simpa using hw, .inl (by simp [writeAll, h])⟩
        · obtain ⟨n, ops, ho, hr⟩ := ih
            (s := s.busDone d 1 (writeEvents s.cfg d w.reg [w.value] a)) (by simpa using hd) hws
          refine ⟨1 + n, writeEvents s.cfg d w.reg [w.value] a :: ops, ?_, ?_⟩
          · intro o hm
            obtain rfl | hm := List.mem_cons.1 hm
            · exact hw
            · simpa using ho o hm
          · simp only [writeAll, h]
            simp only [busDone_busDone] at hr
            obtain hr | ⟨v, hv, hr⟩ | ⟨v, hv, s', hr, hs⟩ := hr
            · exact .inl (by rw [hr]; simp)
            · exact .inr (.inl ⟨v, by simp [hv], by rw [hr]; simp⟩)
            · refine .inr (.inr ⟨v, by simp [hv], s', hr, ?_⟩)
              obtain ⟨rfl, rfl, rfl⟩ | rfl := hs
              · exact .inr (by simp)
              · exact .inr (by simp)
      · exact ⟨1, [_], by simpa using hw, .inr (.inl ⟨w, by simp, by simp [writeAll, h]⟩)⟩

end Sys2Proof.Machine
end

