-- ==== Sys2Proof/Laws/Exec.lean ====
section
/-! SUPPORT. Everything one instruction can do, once for all: `exec_ends` inverts `exec`, and the claims
about whole steps are case analyses on it. -/

namespace Sys2Proof.Machine

/-! ### The families behind the constructors -/

theorem exec_cfgInstr (r : Settings) (s : State) : exec (cfgInstr r) s = configure r s := by
  cases r <;> rfl

theorem exec_enInstr (k : Sensor) (s : State) : exec (enInstr k) s = enable k s := by cases k <;> rfl

theorem exec_rdInstr (k : Sensor) (s : State) : exec (rdInstr k) s = readPhys k s := by
  cases k <;> rfl

theorem exec_rdrawInstr (k : Sensor) (s : State) : exec (rdrawInstr k) s = readRaw k s := by
  cases k <;> rfl

theorem devUsed_cfgInstr (r : Settings) : devUsed (cfgInstr r) = some (devOf (sensorOf r)) := by
  cases r <;> rfl

theorem devUsed_enInstr (k : Sensor) : devUsed (enInstr k) = some (devOf k) := by cases k <;> rfl

theorem devUsed_rdInstr (k : Sensor) : devUsed (rdInstr k) = some (devOf k) := by cases k <;> rfl

theorem devUsed_rdrawInstr (k : Sensor) : devUsed (rdrawInstr k) = some (devOf k) := by
  cases k <;> rfl

/-! ### The two bytes of a sample -/

/-- `raw16` is the bit concatenation of R57: the high byte above the low byte. -/
theorem raw16_eq_append (lo hi : Byte) : raw16 lo hi = hi ++ lo := by
  unfold raw16
  apply BitVec.eq_of_getLsbD_eq
  intro i hi'
  simp only [BitVec.getLsbD_or, BitVec.getLsbD_shiftLeft, BitVec.getLsbD_setWidth,
    BitVec.getLsbD_append]
  by_cases h : i < 8
  · simp [h, hi']
  · simp [h, hi', BitVec.getLsbD_of_ge lo i (by omega)]; omega

/-! ### The writes of configure and enable -/

theorem configureWrites_eq (c : Cfg) (l : DriverState) (r : Settings) :
    configureWrites c l r =
      if l = .enabled then toRegisterBits c r else (toRegisterBits c r).dropLast := by
  unfold configureWrites
  cases r <;> simp [toRegisterBits, ofClass, accelRegs, gyroRegs, magRegs]

theorem configureWrites_ne_nil (c : Cfg) (l : DriverState) (r : Settings) :
    configureWrites c l r ≠ [] := by
  rw [configureWrites_eq]
  cases r <;> split <;> simp [toRegisterBits, accelRegs, gyroRegs, magRegs]

/-- The `Enable` entries of a record are the last entry of its register list, alone (R266). -/
theorem enableWrites_eq (c : Cfg) (r : Settings) :
    ∃ w, ofClass .enable (toRegisterBits c r) = [w] ∧
      (toRegisterBits c r).getLast? = some w := by
  cases r <;> simp [toRegisterBits, ofClass, accelRegs, gyroRegs, magRegs]

/-- What configure stores once its writes are done, as one lifecycle update (R262). -/
theorem configured_eq {s t : State} {r : Settings} (h : ∀ k, t.life k = s.life k) :
    t.configured r = (t.store r).setLife (sensorOf r)
      (if s.life (sensorOf r) = .enabled then .enabled else .configured) := by
  unfold State.configured
  simp only [h]
  split
  · rename_i h'
    rw [← h] at h'
    cases r <;> simp_all [State.store, State.setLife, sensorOf, State.life]
  · rfl

/-! ### How an instruction ends -/

/-- What the success of an instruction writes besides the bus: the lifecycle and the stored record
(R262, R266). -/
def landed (i : Instr) (s t : State) : State :=
  match i with
  | .cfgXl a => (t.store (.xl a)).setLife .xl (if s.life .xl = .enabled then .enabled else .configured)
  | .cfgG g => (t.store (.g g)).setLife .g (if s.life .g = .enabled then .enabled else .configured)
  | .cfgM m => (t.store (.m m)).setLife .m (if s.life .m = .enabled then .enabled else .configured)
  | .enXl => t.setLife .xl .enabled
  | .enG => t.setLife .g .enabled
  | .enM => t.setLife .m .enabled
  | _ => t

/-- How a bus instruction on device `d` ends, after the whole operations `ops`, which drew `n` answers:
with a value, with the error of the last operation, or hanging on the next primitive. -/
def BusEnd (i : Instr) (s t : State) (d : Dev) (n : Nat) (ops : List (List BusEvent)) : Prop :=
  (∃ v, (∀ k, writesLife i = some k → v = .unit) ∧
    t = { landed i s (s.busDone d n ops.flatten) with reply := some (.ok v) }) ∨
  (∃ op reg, t = s.afterBus d n ops.flatten (.err (.busError op d reg))) ∨
  (∃ s', (s' = s ∧ ops = [] ∨ s' = s.busDone d n ops.flatten) ∧
    ((∃ reg data, t = { s'.writeHung d reg data with reply := none }) ∨
     (∃ reg m, t = { s'.readHung d reg m with reply := none })))

/-- Everything that an instruction with a next state has done. -/
inductive Ends (i : Instr) (s t : State) : Prop where
  /-- A pure command (92_eei_decisions.md D35). -/
  | pure (h : isPure i = true) (v : Value) (ht : t = { s with reply := some (.ok v) })
  /-- A refusal (R316). -/
  | refused (q : RefuseReason) (ht : t = s.refuse q)
  /-- A `SequenceError` (R313). -/
  | sequence (k : Sensor) (cmd : SeqCmd) (req : DriverState)
      (h : (i = enInstr k ∧ cmd = .en k ∧ req = .configured ∧ s.life k = .unconfigured) ∨
        (i = rdInstr k ∧ cmd = .rd k ∧ req = .enabled ∧ s.life k ≠ .enabled) ∨
        (i = rdrawInstr k ∧ cmd = .rdraw k ∧ req = .enabled ∧ s.life k ≠ .enabled))
      (ht : t = { s with reply := some (.err (.sequenceError cmd req)) })
  /-- Bus operations. An `EN.s` only gets here from `Configured` or `Enabled` (R266). -/
  | bus (d : Dev) (h : devUsed i = some d) (hd : unimplemented s.cfg.kind d = false)
      (hen : ∀ k, i = enInstr k → s.life k ≠ .unconfigured)
      (n : Nat) (ops : List (List BusEvent)) (ho : ∀ o ∈ ops, WholeOp s.cfg o)
      (he : BusEnd i s t d n ops)

/-- Bus operations of an instruction that is no `EN.s`. -/
theorem Ends.bus' {i : Instr} {s t : State} {d : Dev} (h : devUsed i = some d)
    (hd : unimplemented s.cfg.kind d = false) (hen : ∀ k, i ≠ enInstr k) (n : Nat)
    (ops : List (List BusEvent)) (ho : ∀ o ∈ ops, WholeOp s.cfg o) (he : BusEnd i s t d n ops) :
    Ends i s t :=
  .bus d h hd (fun k hk => absurd hk (hen k)) n ops ho he

theorem landed_other {i : Instr} (h : writesLife i = none) (s t : State) : landed i s t = t := by
  cases i <;> first | rfl | cases h

theorem landed_cfgInstr (r : Settings) (s t : State) :
    landed (cfgInstr r) s t = (t.store r).setLife (sensorOf r)
      (if s.life (sensorOf r) = .enabled then .enabled else .configured) := by
  cases r <;> rfl

theorem landed_enInstr (k : Sensor) (s t : State) :
    landed (enInstr k) s t = t.setLife k .enabled := by
  cases k <;> rfl

@[simp] theorem landed_cfg (i : Instr) (s t : State) : (landed i s t).cfg = t.cfg := by
  cases i <;> simp [landed]

@[simp] theorem landed_hist (i : Instr) (s t : State) : (landed i s t).hist = t.hist := by
  cases i <;> simp [landed]

@[simp] theorem landed_refused (i : Instr) (s t : State) :
    (landed i s t).refused = t.refused := by
  cases i <;> simp [landed]

@[simp] theorem landed_inbox (i : Instr) (s t : State) : (landed i s t).inbox = t.inbox := by
  cases i <;> simp [landed]

@[simp] theorem landed_waiting (i : Instr) (s t : State) :
    (landed i s t).waiting = t.waiting := by
  cases i <;> simp [landed]

@[simp] theorem landed_cs (i : Instr) (s t : State) (d : Dev) : (landed i s t).cs d = t.cs d := by
  cases i <;> cases d <;> rfl

theorem landed_life_other {i : Instr} {k : Sensor} (h : writesLife i ≠ some k) (s t : State) :
    (landed i s t).life k = t.life k := by
  cases i <;> cases k <;> first | rfl | exact absurd rfl h

theorem landed_settings_other {i : Instr} {k : Sensor} (h : writesLife i ≠ some k) (s t : State) :
    (landed i s t).settings k = t.settings k := by
  cases i <;> cases k <;> first | rfl | exact absurd rfl h

/-- The only instructions that write a lifecycle are `CFG.s` and `EN.s` (R26). -/
theorem writesLife_some {i : Instr} {k : Sensor} (h : writesLife i = some k) :
    (∃ r, i = cfgInstr r ∧ sensorOf r = k) ∨ i = enInstr k := by
  cases i <;> simp only [writesLife, reduceCtorEq, Option.some.injEq] at h <;> subst h <;>
    first
      | exact .inr rfl
      | exact .inl ⟨.xl _, rfl, rfl⟩
      | exact .inl ⟨.g _, rfl, rfl⟩
      | exact .inl ⟨.m _, rfl, rfl⟩

theorem setLife_life (s : State) (k k' : Sensor) (v : DriverState) :
    (s.setLife k v).life k' = if k' = k then v else s.life k' := by
  cases k <;> cases k' <;> rfl

/-- A write, ended by `finish` (R129, R112, R121). -/
theorem write_ends {i : Instr} {s t : State} {d : Dev} {reg : Byte} {data : List Byte}
    (hu : devUsed i = some d) (hw : writesLife i = none) (hen : ∀ k, i ≠ enInstr k) (hne : data ≠ [])
    (h : finish (fun _ => .unit) (memWrite d reg data s) = .next t) : Ends i s t := by
  cases h
  obtain ⟨-, h⟩ | ⟨hd, -, h⟩ | ⟨hd, a, -, h⟩ := memWrite_cases d reg data s <;> rw [h]
  · exact .refused .unimplemented rfl
  · exact .bus' hu hd hen 0 [] (by simp) (.inr (.inr ⟨s, .inl ⟨rfl, rfl⟩, .inl ⟨reg, data, rfl⟩⟩))
  · refine .bus' hu hd hen 1 [writeEvents s.cfg d reg data a]
      (by simpa using wholeOp_write hd reg hne a) ?_
    obtain he | he := writeEnd_cases s.cfg d reg data.length a <;> rw [he]
    · exact .inl ⟨.unit, fun _ _ => rfl, by simp [landed_other hw, Res.map, State.finish]⟩
    · exact .inr (.inl ⟨.write, reg, by simp [Res.map, State.finish, State.afterBus]⟩)

/-- A read, ended by `finish` (R129, R115, R124). -/
theorem read_ends {i : Instr} {s t : State} {d : Dev} {reg : Byte} {n : Nat}
    (hu : devUsed i = some d) (hw : writesLife i = none) (hen : ∀ k, i ≠ enInstr k) (hne : n ≠ 0)
    (h : finish .bytes (memRead d reg n s) = .next t) : Ends i s t := by
  cases h
  obtain ⟨-, h⟩ | ⟨hd, -, h⟩ | ⟨hd, a, -, h⟩ := memRead_cases d reg n s <;> rw [h]
  · exact .refused .unimplemented rfl
  · exact .bus' hu hd hen 0 [] (by simp) (.inr (.inr ⟨s, .inl ⟨rfl, rfl⟩, .inr ⟨reg, n, rfl⟩⟩))
  · refine .bus' hu hd hen 1 [readEvents s.cfg d reg n a]
      (by simpa using wholeOp_read hd reg hne a) ?_
    obtain ⟨b, he, -⟩ | he := readEnd_cases s.cfg d reg n a <;> rw [he]
    · exact .inl ⟨.bytes b, fun k hk => by simp [hw] at hk,
        by simp [landed_other hw, Res.map, State.finish]⟩
    · exact .inr (.inl ⟨.read, reg, by simp [Res.map, State.finish, State.afterBus]⟩)

/-- A sample read, ended by `finish` (R270). -/
theorem sample_ends {i : Instr} {s t : State} {d : Dev} {reg : Byte} {n : Nat} {α : Type}
    {sample : List Byte → Option α} {f : α → Value} (hu : devUsed i = some d)
    (hw : writesLife i = none) (hen : ∀ k, i ≠ enInstr k) (hne : n ≠ 0)
    (hs : ∀ b, b.length = n → ∃ v, sample b = some v)
    (h : finish f (readSample d reg n sample s) = .next t) : Ends i s t := by
  cases h
  obtain ⟨-, h⟩ | ⟨hd, -, h⟩ | ⟨hd, a, -, h⟩ := readSample_cases d reg n hs s
  · rw [h]; exact .refused .unimplemented rfl
  · rw [h]
    exact .bus' hu hd hen 0 [] (by simp) (.inr (.inr ⟨s, .inl ⟨rfl, rfl⟩, .inr ⟨reg, n, rfl⟩⟩))
  · refine .bus' hu hd hen 1 [readEvents s.cfg d reg n a]
      (by simpa using wholeOp_read hd reg hne a) ?_
    obtain ⟨b, v, -, -, h⟩ | ⟨-, h⟩ := h <;> rw [h]
    · exact .inl ⟨f v, fun k hk => by simp [hw] at hk,
        by simp [landed_other hw, Res.map, State.finish]⟩
    · exact .inr (.inl ⟨.read, reg, by simp [Res.map, State.finish, State.afterBus]⟩)

theorem onBus_ends {i : Instr} {kind : BusKind} {n : Nat} {s t : State} {fits : Bool}
    {run : Host.Outcome State Fault Refusal}
    (hr : s.cfg.kind = kind → fits = true → run = .next t → Ends i s t)
    (h : onBus kind fits n s run = .next t) : Ends i s t := by
  unfold onBus at h
  split at h
  · cases h
  · rename_i hk
    split at h
    · rename_i hf
      exact hr (not_not.1 hk) (by simp_all) h
    · cases h; exact .refused _ rfl

theorem transportWrite_ends {i : Instr} {s t : State} {d : Dev} {reg : Byte} {data : List Byte}
    (hu : devUsed i = some d) (hw : writesLife i = none) (hen : ∀ k, i ≠ enInstr k)
    (h : transportWrite d reg data s = .next t) : Ends i s t := by
  unfold transportWrite at h
  split at h
  · cases h; exact .refused _ rfl
  · rename_i hr
    refine write_ends hu hw hen ?_ h
    rintro rfl
    simp [refusal?] at hr

theorem transportRead_ends {i : Instr} {s t : State} {d : Dev} {reg : Byte} {n : Nat}
    (hu : devUsed i = some d) (hw : writesLife i = none) (hen : ∀ k, i ≠ enInstr k)
    (h : transportRead d reg n s = .next t) : Ends i s t := by
  unfold transportRead at h
  split at h
  · cases h; exact .refused _ rfl
  · rename_i hr
    refine read_ends hu hw hen ?_ h
    rintro rfl
    simp [refusal?] at hr

theorem cfgInstr_ne_enInstr (r : Settings) (k : Sensor) : cfgInstr r ≠ enInstr k := by
  cases r <;> cases k <;> simp [cfgInstr, enInstr]

theorem rdInstr_ne_enInstr (k k' : Sensor) : rdInstr k ≠ enInstr k' := by
  cases k <;> cases k' <;> simp [rdInstr, enInstr]

theorem rdrawInstr_ne_enInstr (k k' : Sensor) : rdrawInstr k ≠ enInstr k' := by
  cases k <;> cases k' <;> simp [rdrawInstr, enInstr]

theorem configure_ends {r : Settings} {s t : State} (h : configure r s = .next t) :
    Ends (cfgInstr r) s t := by
  unfold configure at h
  simp only [] at h
  split at h
  · cases h; exact .refused _ rfl
  · rename_i hd
    cases h
    have hd : unimplemented s.cfg.kind (devOf (sensorOf r)) = false := by simpa using hd
    have hne := configureWrites_ne_nil s.cfg (s.life (sensorOf r)) r
    obtain ⟨n, ops, ho, h⟩ := writeAll_ends hd hne
    refine .bus' (devUsed_cfgInstr r) hd (cfgInstr_ne_enInstr r) n ops ho ?_
    obtain h | ⟨w, -, h⟩ | ⟨w, -, s', h, hs⟩ := h <;> simp only [h]
    · refine .inl ⟨.unit, fun _ _ => rfl, ?_⟩
      rw [configured_eq (s := s) (fun k => busDone_life s _ n ops.flatten k)]
      cases r <;> rfl
    · exact .inr (.inl ⟨.write, w.reg, by simp [Res.map, State.finish, State.afterBus]⟩)
    · refine .inr (.inr ⟨s', ?_, .inl ⟨w.reg, [w.value], rfl⟩⟩)
      obtain ⟨rfl, -, rfl⟩ | rfl := hs
      · exact .inl ⟨rfl, rfl⟩
      · exact .inr rfl

theorem enable_ends {k : Sensor} {s t : State} (h : enable k s = .next t) :
    Ends (enInstr k) s t := by
  unfold enable at h
  split at h
  · cases h; exact .refused _ rfl
  rename_i hd
  split at h
  · rename_i hl
    cases h
    exact .sequence k _ _ (.inl ⟨rfl, rfl, rfl, hl⟩) rfl
  rename_i hl
  split at h
  · cases h
  · rename_i r _
    cases h
    have hd : unimplemented s.cfg.kind (devOf k) = false := by simpa using hd
    obtain ⟨w, hw, -⟩ := enableWrites_eq s.cfg r
    obtain ⟨n, ops, ho, h⟩ := writeAll_ends (ws := ofClass .enable (toRegisterBits s.cfg r)) hd
      (by simp [hw])
    refine .bus _ (devUsed_enInstr k) hd ?_ n ops ho ?_
    · intro k' hk'
      have : k = k' := by cases k <;> cases k' <;> simp_all [enInstr]
      exact this ▸ hl
    obtain h | ⟨w, -, h⟩ | ⟨w, -, s', h, hs⟩ := h <;> simp only [h]
    · refine .inl ⟨.unit, fun _ _ => rfl, ?_⟩
      cases k <;> rfl
    · exact .inr (.inl ⟨.write, w.reg, by simp [Res.map, State.finish, State.afterBus]⟩)
    · refine .inr (.inr ⟨s', ?_, .inl ⟨w.reg, [w.value], rfl⟩⟩)
      obtain ⟨rfl, -, rfl⟩ | rfl := hs
      · exact .inl ⟨rfl, rfl⟩
      · exact .inr rfl

theorem readPhys_ends {k : Sensor} {s t : State} (h : readPhys k s = .next t) :
    Ends (rdInstr k) s t := by
  unfold readPhys at h
  split at h
  · cases h; exact .refused _ rfl
  split at h
  · rename_i hl
    cases h
    exact .sequence k _ _ (.inr (.inl ⟨rfl, rfl, rfl, hl⟩)) rfl
  split at h
  · cases h
  · exact sample_ends (devUsed_rdInstr k) (by cases k <;> rfl) (rdInstr_ne_enInstr k) (by simp)
      (fun _ => sample3_length) h

theorem readRaw_ends {k : Sensor} {s t : State} (h : readRaw k s = .next t) :
    Ends (rdrawInstr k) s t := by
  unfold readRaw at h
  split at h
  · cases h; exact .refused _ rfl
  split at h
  · rename_i hl
    cases h
    exact .sequence k _ _ (.inr (.inr ⟨rfl, rfl, rfl, hl⟩)) rfl
  · exact sample_ends (devUsed_rdrawInstr k) (by cases k <;> rfl) (rdrawInstr_ne_enInstr k) (by simp)
      (fun _ => sample3_length) h

/-- Everything one instruction can do, when it has a next state. -/
theorem exec_ends {i : Instr} {s t : State} (h : exec i s = .next t) : Ends i s t := by
  have hen : ∀ i, (∀ k, writesLife i ≠ some k) → ∀ k, i ≠ enInstr k := by
    rintro i hi k rfl
    cases k <;> exact absurd rfl (hi _)
  cases i with
  | cfgXl a => exact configure_ends (r := .xl a) h
  | cfgG g => exact configure_ends (r := .g g) h
  | cfgM m => exact configure_ends (r := .m m) h
  | enXl => exact enable_ends (k := .xl) h
  | enG => exact enable_ends (k := .g) h
  | enM => exact enable_ends (k := .m) h
  | rdXl => exact readPhys_ends (k := .xl) h
  | rdG => exact readPhys_ends (k := .g) h
  | rdM => exact readPhys_ends (k := .m) h
  | rdT => exact sample_ends rfl rfl (hen _ (by simp [writesLife])) (by simp) (fun _ => sample1_length) h
  | rdrawXl => exact readRaw_ends (k := .xl) h
  | rdrawG => exact readRaw_ends (k := .g) h
  | rdrawM => exact readRaw_ends (k := .m) h
  | rdrawT =>
    exact sample_ends rfl rfl (hen _ (by simp [writesLife])) (by simp) (fun _ => sample1_length) h
  | twrAg reg data => exact transportWrite_ends rfl rfl (hen _ (by simp [writesLife])) h
  | twrM reg data => exact transportWrite_ends rfl rfl (hen _ (by simp [writesLife])) h
  | trdAg reg n => exact transportRead_ends rfl rfl (hen _ (by simp [writesLife])) h
  | trdM reg n => exact transportRead_ends rfl rfl (hen _ (by simp [writesLife])) h
  | spiAgWrite reg data =>
    refine onBus_ends (fun hk hf h => write_ends rfl rfl (hen _ (by simp [writesLife])) ?_
      ((memWrite_serial hk ..).symm ▸ h)) h
    rintro rfl; simp [Instr.wf] at hf
  | spiAgRead reg n =>
    refine onBus_ends (fun hk hf h => read_ends rfl rfl (hen _ (by simp [writesLife])) ?_
      ((memRead_serial hk ..).symm ▸ h)) h
    rintro rfl; simp [Instr.wf] at hf
  | spiMWrite1 reg b =>
    exact onBus_ends (fun hk hf h => write_ends rfl rfl (hen _ (by simp [writesLife])) (by simp)
      ((memWrite_serial hk ..).symm ▸ h)) h
  | spiMWriteB reg data =>
    refine onBus_ends (fun hk hf h => write_ends rfl rfl (hen _ (by simp [writesLife])) ?_
      ((memWrite_serial hk ..).symm ▸ h)) h
    rintro rfl; simp [Instr.wf] at hf
  | spiMRead1 reg =>
    exact onBus_ends (fun hk hf h => read_ends rfl rfl (hen _ (by simp [writesLife])) (by simp)
      ((memRead_serial hk ..).symm ▸ h)) h
  | spiMReadB reg n =>
    refine onBus_ends (fun hk hf h => read_ends rfl rfl (hen _ (by simp [writesLife])) ?_
      ((memRead_serial hk ..).symm ▸ h)) h
    rintro rfl; simp [Instr.wf] at hf
  | i2cAgPtr reg use =>
    cases use with
    | write data =>
      refine onBus_ends (fun hk hf h => write_ends (d := .ag) rfl rfl (hen _ (by simp [writesLife])) ?_
        ((memWrite_addressed hk ..).symm ▸ h)) h
      rintro rfl; simp [Instr.wf] at hf
    | read n =>
      refine onBus_ends (fun hk hf h => read_ends (d := .ag) rfl rfl (hen _ (by simp [writesLife])) ?_
        ((memRead_addressed hk ..).symm ▸ h)) h
      rintro rfl; simp [Instr.wf] at hf
  | _ => exact .pure rfl _ (Host.Outcome.next.inj h).symm

end Sys2Proof.Machine
end

