-- ==== Sys2Proof/Laws/PerInstr.lean ====
section
/-! SUPPORT. One law for every instruction: the first byte of its encoding carries the bits that its row
of spec/opcode_table.json fixes. -/

namespace Sys2Proof.Laws.FirstByte

open Sys2Proof

/-- The mask and the match of an instruction's row in spec/opcode_table.json. -/
def row : Instr → Byte × Byte
  | .cfgXl _ => (0xFF, 0x10)
  | .cfgG _ => (0xFF, 0x11)
  | .cfgM _ => (0xFF, 0x12)
  | .enXl => (0xFF, 0x20)
  | .enG => (0xFF, 0x21)
  | .enM => (0xFF, 0x22)
  | .rdXl => (0xFF, 0x30)
  | .rdG => (0xFF, 0x31)
  | .rdM => (0xFF, 0x32)
  | .rdT => (0xFF, 0x33)
  | .rdrawXl => (0xFF, 0x40)
  | .rdrawG => (0xFF, 0x41)
  | .rdrawM => (0xFF, 0x42)
  | .rdrawT => (0xFF, 0x43)
  | .twrAg _ _ => (0xFF, 0x50)
  | .twrM _ _ => (0xFF, 0x51)
  | .trdAg _ _ => (0xFF, 0x60)
  | .trdM _ _ => (0xFF, 0x61)
  | .encXl _ => (0xFF, 0x70)
  | .encG _ => (0xFF, 0x71)
  | .encM _ => (0xFF, 0x72)
  | .sensXl _ => (0xFF, 0x80)
  | .sensG _ => (0xFF, 0x81)
  | .sensM _ => (0xFF, 0x82)
  | .convXl _ _ _ _ => (0xFF, 0x90)
  | .convG _ _ _ _ => (0xFF, 0x91)
  | .convM _ _ _ _ => (0xFF, 0x92)
  | .tconv _ => (0xFF, 0xA0)
  | .spiAgWrite _ _ => (0x80, 0x00)
  | .spiAgRead _ _ => (0x80, 0x80)
  | .spiMWrite1 _ _ => (0xC0, 0x00)
  | .spiMWriteB _ _ => (0xC0, 0x40)
  | .spiMRead1 _ => (0xC0, 0x80)
  | .spiMReadB _ _ => (0xC0, 0xC0)
  | .i2cAgPtr _ _ => (0x00, 0x00)

/-- The command word, or the first byte that the block sends. -/
def firstByte : Request → Option Byte
  | .command w _ => some w
  | .frame (.spi _ out) => out.head?
  | .frame (.i2cWrite out) => out.head?
  | .frame (.i2cWriteRead out _) => out.head?

/-- A well-formed instruction's encoding begins with a byte of its row. -/
def Statement (i : Instr) : Prop :=
  i.wf = true → ∃ b, firstByte (encode i) = some b ∧ b &&& (row i).1 = (row i).2

/-! The address bytes of R81 and R82, on registers that their field holds. -/

theorem abyteAg_read : ∀ reg : Byte, abyteAg 1 reg &&& 0x80 = 0x80 := by decide

theorem abyteAg_write : ∀ reg : Byte, abyteAg 0 reg &&& 0x80 = 0x00 := by decide

theorem abyteM_write1 : ∀ reg : Byte, abyteM 0 0 reg &&& 0xC0 = 0x00 := by decide

theorem abyteM_writeB : ∀ reg : Byte, abyteM 0 1 reg &&& 0xC0 = 0x40 := by decide

theorem abyteM_read1 : ∀ reg : Byte, abyteM 1 0 reg &&& 0xC0 = 0x80 := by decide

theorem abyteM_readB : ∀ reg : Byte, abyteM 1 1 reg &&& 0xC0 = 0xC0 := by decide

theorem msBit_burst {n : Nat} (h : 2 ≤ n) : msBit n = 1 := by
  unfold msBit; rw [if_pos (by omega)]

theorem cfgXl (a : AccelSettings) : Statement (.cfgXl a) :=
  fun _ => ⟨_, rfl, (by decide : Cmd.cfgXl.word &&& 0xFF = 0x10)⟩

theorem cfgG (g : GyroSettings) : Statement (.cfgG g) :=
  fun _ => ⟨_, rfl, (by decide : Cmd.cfgG.word &&& 0xFF = 0x11)⟩

theorem cfgM (m : MagSettings) : Statement (.cfgM m) :=
  fun _ => ⟨_, rfl, (by decide : Cmd.cfgM.word &&& 0xFF = 0x12)⟩

theorem enXl : Statement .enXl :=
  fun _ => ⟨_, rfl, (by decide : Cmd.enXl.word &&& 0xFF = 0x20)⟩

theorem enG : Statement .enG :=
  fun _ => ⟨_, rfl, (by decide : Cmd.enG.word &&& 0xFF = 0x21)⟩

theorem enM : Statement .enM :=
  fun _ => ⟨_, rfl, (by decide : Cmd.enM.word &&& 0xFF = 0x22)⟩

theorem rdXl : Statement .rdXl :=
  fun _ => ⟨_, rfl, (by decide : Cmd.rdXl.word &&& 0xFF = 0x30)⟩

theorem rdG : Statement .rdG :=
  fun _ => ⟨_, rfl, (by decide : Cmd.rdG.word &&& 0xFF = 0x31)⟩

theorem rdM : Statement .rdM :=
  fun _ => ⟨_, rfl, (by decide : Cmd.rdM.word &&& 0xFF = 0x32)⟩

theorem rdT : Statement .rdT :=
  fun _ => ⟨_, rfl, (by decide : Cmd.rdT.word &&& 0xFF = 0x33)⟩

theorem rdrawXl : Statement .rdrawXl :=
  fun _ => ⟨_, rfl, (by decide : Cmd.rdrawXl.word &&& 0xFF = 0x40)⟩

theorem rdrawG : Statement .rdrawG :=
  fun _ => ⟨_, rfl, (by decide : Cmd.rdrawG.word &&& 0xFF = 0x41)⟩

theorem rdrawM : Statement .rdrawM :=
  fun _ => ⟨_, rfl, (by decide : Cmd.rdrawM.word &&& 0xFF = 0x42)⟩

theorem rdrawT : Statement .rdrawT :=
  fun _ => ⟨_, rfl, (by decide : Cmd.rdrawT.word &&& 0xFF = 0x43)⟩

theorem twrAg (reg : Byte) (data : List Byte) : Statement (.twrAg reg data) :=
  fun _ => ⟨_, rfl, (by decide : Cmd.twrAg.word &&& 0xFF = 0x50)⟩

theorem twrM (reg : Byte) (data : List Byte) : Statement (.twrM reg data) :=
  fun _ => ⟨_, rfl, (by decide : Cmd.twrM.word &&& 0xFF = 0x51)⟩

theorem trdAg (reg : Byte) (n : Nat) : Statement (.trdAg reg n) :=
  fun _ => ⟨_, rfl, (by decide : Cmd.trdAg.word &&& 0xFF = 0x60)⟩

theorem trdM (reg : Byte) (n : Nat) : Statement (.trdM reg n) :=
  fun _ => ⟨_, rfl, (by decide : Cmd.trdM.word &&& 0xFF = 0x61)⟩

theorem encXl (a : AccelSettings) : Statement (.encXl a) :=
  fun _ => ⟨_, rfl, (by decide : Cmd.encXl.word &&& 0xFF = 0x70)⟩

theorem encG (g : GyroSettings) : Statement (.encG g) :=
  fun _ => ⟨_, rfl, (by decide : Cmd.encG.word &&& 0xFF = 0x71)⟩

theorem encM (m : MagSettings) : Statement (.encM m) :=
  fun _ => ⟨_, rfl, (by decide : Cmd.encM.word &&& 0xFF = 0x72)⟩

theorem sensXl (k : AccelScale) : Statement (.sensXl k) :=
  fun _ => ⟨_, rfl, (by decide : Cmd.sensXl.word &&& 0xFF = 0x80)⟩

theorem sensG (k : GyroScale) : Statement (.sensG k) :=
  fun _ => ⟨_, rfl, (by decide : Cmd.sensG.word &&& 0xFF = 0x81)⟩

theorem sensM (k : MagScale) : Statement (.sensM k) :=
  fun _ => ⟨_, rfl, (by decide : Cmd.sensM.word &&& 0xFF = 0x82)⟩

theorem convXl (k : AccelScale) (x : I16) (y : I16) (z : I16) : Statement (.convXl k x y z) :=
  fun _ => ⟨_, rfl, (by decide : Cmd.convXl.word &&& 0xFF = 0x90)⟩

theorem convG (k : GyroScale) (x : I16) (y : I16) (z : I16) : Statement (.convG k x y z) :=
  fun _ => ⟨_, rfl, (by decide : Cmd.convG.word &&& 0xFF = 0x91)⟩

theorem convM (k : MagScale) (x : I16) (y : I16) (z : I16) : Statement (.convM k x y z) :=
  fun _ => ⟨_, rfl, (by decide : Cmd.convM.word &&& 0xFF = 0x92)⟩

theorem tconv (raw : I16) : Statement (.tconv raw) :=
  fun _ => ⟨_, rfl, (by decide : Cmd.tconv.word &&& 0xFF = 0xA0)⟩

theorem spiAgWrite (reg : Byte) (data : List Byte) : Statement (.spiAgWrite reg data) :=
  fun _ => ⟨_, rfl, abyteAg_write reg⟩

theorem spiAgRead (reg : Byte) (n : Nat) : Statement (.spiAgRead reg n) :=
  fun _ => ⟨_, rfl, abyteAg_read reg⟩

theorem spiMWrite1 (reg : Byte) (b : Byte) : Statement (.spiMWrite1 reg b) :=
  fun _ => ⟨_, rfl, abyteM_write1 reg⟩

theorem spiMWriteB (reg : Byte) (data : List Byte) : Statement (.spiMWriteB reg data) :=
  fun h => ⟨_, rfl, by
    have hn : 2 ≤ data.length := by simp [Instr.wf] at h; exact h.2
    simpa [abyte, row, msBit_burst hn] using abyteM_writeB reg⟩

theorem spiMRead1 (reg : Byte) : Statement (.spiMRead1 reg) :=
  fun _ => ⟨_, rfl, abyteM_read1 reg⟩

theorem spiMReadB (reg : Byte) (n : Nat) : Statement (.spiMReadB reg n) :=
  fun h => ⟨_, rfl, by
    have hn : 2 ≤ n := by simp [Instr.wf] at h; exact h.2
    simpa [abyte, row, msBit_burst hn] using abyteM_readB reg⟩

theorem i2cAgPtr (reg : Byte) (use : PtrUse) : Statement (.i2cAgPtr reg use) :=
  fun _ => by cases use <;> exact ⟨reg, rfl, by simp [row]⟩

end Sys2Proof.Laws.FirstByte
end

