-- ==== Sys2Proof/Tests/Slice0.lean ====
section
/-! SUPPORT. Tests against the vectors of 95_test_vectors.md and the examples of the rules, and one
witness for each statement with hypotheses. -/

namespace Sys2Proof.Tests

open Sys2Proof Sys2Proof.Machine

/-! ### Small states and observations -/

/-- A new block of the given kind, with the oracle's next answers. -/
def fresh (k : BusKind) (ds : List Draw) : State :=
  { State.construct (defaultCfg k) with answers := ds }

/-- The accelerometer configured with its default record. -/
def readyXl (k : BusKind) (ds : List Draw) : State :=
  { fresh k ds with lifeXl := .configured, settingsXl := some accelDefault }

/-- Every sensor enabled with its default record. -/
def running (k : BusKind) (ds : List Draw) : State :=
  { fresh k ds with
    lifeXl := .enabled, settingsXl := some accelDefault
    lifeG := .enabled, settingsG := some gyroDefault
    lifeM := .enabled, settingsM := some magDefault }

/-- A successful answer to a single-byte serial write. -/
def two : Draw := .ok [0, 0]

/-- The result that the caller gets. -/
def result : Host.Outcome State Fault Refusal → Option Reply
  | .next t => t.reply
  | _ => none

/-- The history after it. -/
def history : Host.Outcome State Fault Refusal → List BusEvent
  | .next t => t.hist
  | _ => []

/-- The lifecycle of a sensor after it. -/
def lifeAfter (k : Sensor) : Host.Outcome State Fault Refusal → Option DriverState
  | .next t => some (t.life k)
  | _ => none

/-- The mark `refused` and the result. -/
def mark : Host.Outcome State Fault Refusal → Option (Bool × Option Reply)
  | .next t => some (t.refused, t.reply)
  | _ => none

/-- The events of one serial write that succeeded. -/
def wrote (d : Dev) (out : List Byte) : List BusEvent :=
  [.cs d .low, .xfer out (.ok [0, 0]), .cs d .high]

/-! ### Well-formedness: an ill-formed term for each check (R81 to R88, R6, R7) -/

theorem test_wf_spi_ag_write_reg : (Instr.spiAgWrite 0x80 [0]).wf = false := by decide
theorem test_wf_spi_ag_write_empty : (Instr.spiAgWrite 0x10 []).wf = false := by decide
theorem test_wf_spi_ag_read_reg : (Instr.spiAgRead 0x80 1).wf = false := by decide
theorem test_wf_spi_ag_read_zero : (Instr.spiAgRead 0x10 0).wf = false := by decide
theorem test_wf_spi_m_write1_reg : (Instr.spiMWrite1 0x40 0).wf = false := by decide
theorem test_wf_spi_m_writeb_reg : (Instr.spiMWriteB 0x40 [0, 0]).wf = false := by decide
theorem test_wf_spi_m_writeb_single : (Instr.spiMWriteB 0x20 [0]).wf = false := by decide
theorem test_wf_spi_m_read1_reg : (Instr.spiMRead1 0x40).wf = false := by decide
theorem test_wf_spi_m_readb_reg : (Instr.spiMReadB 0x40 2).wf = false := by decide
theorem test_wf_spi_m_readb_single : (Instr.spiMReadB 0x28 1).wf = false := by decide
theorem test_wf_i2c_write_empty : (Instr.i2cAgPtr 0x10 (.write [])).wf = false := by decide
theorem test_wf_i2c_read_zero : (Instr.i2cAgPtr 0x10 (.read 0)).wf = false := by decide
theorem test_wf_boundaries : (Instr.spiAgRead 0x7F 1).wf = true ∧ (Instr.spiMReadB 0x3F 2).wf = true ∧
    (Instr.i2cAgPtr 0xFF (.read 1)).wf = true := by decide

theorem test_cfg_wf_default : (defaultCfg .serial).wf = true ∧ (defaultCfg .addressed).wf = true := by
  decide
theorem test_cfg_wf_burst : ({ defaultCfg .serial with maxBurst := 5 } : Cfg).wf = false := by decide
theorem test_cfg_wf_temp_scale :
    ({ defaultCfg .serial with tempScale := 0x80000000 } : Cfg).wf = false := by decide
theorem test_cfg_wf_out_x_l : ({ defaultCfg .serial with
    regmap := { defaultRegMap with outXLXl := 0x29 } } : Cfg).wf = false := by decide

/-! ### Decoding: the words of opcode_table.json, bit by bit, and the frames of section 2.1 -/

theorem test_decode_cfg : decode (.command 0b00010000 (.accel accelDefault)) = .ok (.cfgXl accelDefault) ∧
    decode (.command 0b00010001 (.gyro gyroDefault)) = .ok (.cfgG gyroDefault) ∧
    decode (.command 0b00010010 (.mag magDefault)) = .ok (.cfgM magDefault) := by decide
theorem test_decode_en : decode (.command 0b00100000 .none) = .ok .enXl ∧
    decode (.command 0b00100001 .none) = .ok .enG ∧
    decode (.command 0b00100010 .none) = .ok .enM := by decide
theorem test_decode_rd : decode (.command 0b00110000 .none) = .ok .rdXl ∧
    decode (.command 0b00110001 .none) = .ok .rdG ∧ decode (.command 0b00110010 .none) = .ok .rdM ∧
    decode (.command 0b00110011 .none) = .ok .rdT := by decide
theorem test_decode_rdraw : decode (.command 0b01000000 .none) = .ok .rdrawXl ∧
    decode (.command 0b01000001 .none) = .ok .rdrawG ∧
    decode (.command 0b01000010 .none) = .ok .rdrawM ∧
    decode (.command 0b01000011 .none) = .ok .rdrawT := by decide
theorem test_decode_twr : decode (.command 0b01010000 (.write 0x10 [0x60])) = .ok (.twrAg 0x10 [0x60]) ∧
    decode (.command 0b01010001 (.write 0x22 [0])) = .ok (.twrM 0x22 [0]) := by decide
theorem test_decode_trd : decode (.command 0b01100000 (.read 0x20 6)) = .ok (.trdAg 0x20 6) ∧
    decode (.command 0b01100001 (.read 0x0F 1)) = .ok (.trdM 0x0F 1) := by decide
theorem test_decode_enc : decode (.command 0b01110000 (.accel accelDefault)) = .ok (.encXl accelDefault) ∧
    decode (.command 0b01110001 (.gyro gyroDefault)) = .ok (.encG gyroDefault) ∧
    decode (.command 0b01110010 (.mag magDefault)) = .ok (.encM magDefault) := by decide
theorem test_decode_sens : decode (.command 0b10000000 (.accelScale .g16)) = .ok (.sensXl .g16) ∧
    decode (.command 0b10000001 (.gyroScale .dps245)) = .ok (.sensG .dps245) ∧
    decode (.command 0b10000010 (.magScale .g12)) = .ok (.sensM .g12) := by decide
theorem test_decode_conv : decode (.command 0b10010000 (.accelRaw .g2 0 1 (-1))) = .ok (.convXl .g2 0 1 (-1)) ∧
    decode (.command 0b10010001 (.gyroRaw .dps245 1 2 3)) = .ok (.convG .dps245 1 2 3) ∧
    decode (.command 0b10010010 (.magRaw .g4 1 2 3)) = .ok (.convM .g4 1 2 3) := by decide
theorem test_decode_tconv : decode (.command 0b10100000 (.raw 400)) = .ok (.tconv 400) := by decide
theorem test_decode_spi_ag : decode (.frame (.spi .ag [0b00010000, 0x60])) = .ok (.spiAgWrite 0x10 [0x60]) ∧
    decode (.frame (.spi .ag [0b10100000, 0, 0, 0, 0, 0, 0])) = .ok (.spiAgRead 0x20 6) := by decide
theorem test_decode_spi_m : decode (.frame (.spi .m [0b00100000, 0x10])) = .ok (.spiMWrite1 0x20 0x10) ∧
    decode (.frame (.spi .m [0b01111111, 0xAA, 0xBB])) = .ok (.spiMWriteB 0x3F [0xAA, 0xBB]) ∧
    decode (.frame (.spi .m [0b10001111, 0])) = .ok (.spiMRead1 0x0F) ∧
    decode (.frame (.spi .m [0b11101000, 0, 0, 0, 0, 0, 0])) = .ok (.spiMReadB 0x28 6) := by decide
theorem test_decode_i2c : decode (.frame (.i2cWriteRead [0b10101000] 6)) = .ok (.i2cAgPtr 0xA8 (.read 6)) ∧
    decode (.frame (.i2cWrite [0x10, 0x60])) = .ok (.i2cAgPtr 0x10 (.write [0x60])) := by decide

/-- Section 2.5. -/
theorem test_decode_reserved : [0x13, 0x23, 0x34, 0x52, 0x62, 0xA1, 0x00, 0x0F, 0xB0, 0xFF].all
    (fun w : Byte => decode (.command w .none) = .error .reservedCommand) = true := by decide
theorem test_decode_payload : decode (.command 0x20 (.raw 0)) = .error .payloadMismatch := by decide
theorem test_decode_bad_frames :
    decode (.frame (.spi .ag [0xA0])) = .error .emptyFrame ∧
    decode (.frame (.spi .ag [0xA0, 1])) = .error .badFiller ∧
    decode (.frame (.spi .m [0x60, 0x10])) = .error .badMs ∧
    decode (.frame (.i2cWriteRead [0x28, 0] 6)) = .error .badPointer := by decide
theorem test_decode_table_word : decodeTableWord 8 0x60 = some (.trdAg 0 1) ∧
    decodeTableWord 8 0x33 = some .rdT ∧ decodeTableWord 8 0x13 = none ∧
    decodeTableWord 16 0x33 = none := by decide

/-! ### The facade (sections 1 and 2.4) -/

theorem test_cfg_xl_default :
    let o := exec (.cfgXl accelDefault) (fresh .serial [two, two])
    result o = some (.ok .unit) ∧ lifeAfter .xl o = some .configured ∧
    history o = wrote .ag [0x20, 0x60] ++ wrote .ag [0x21, 0x00] := by decide
theorem test_cfg_xl_second_write_fails :
    let o := exec (.cfgXl accelDefault) (fresh .serial [two, .fail, two])
    result o = some (.err (.busError .write .ag 0x21)) ∧ lifeAfter .xl o = some .unconfigured ∧
    history o = wrote .ag [0x20, 0x60] ++ [.cs .ag .low, .xfer [0x21, 0x00] .fail, .cs .ag .high] := by
  decide
/-- Program P2, command 3. -/
theorem test_cfg_g_dps2000 :
    let o := exec (.cfgG { gyroDefault with scale := .dps2000 }) (fresh .serial [two, two, two])
    result o = some (.ok .unit) ∧ lifeAfter .g o = some .configured ∧
    history o = wrote .ag [0x10, 0x78] ++ wrote .ag [0x11, 0x00] ++ wrote .ag [0x12, 0x00] := by decide
theorem test_cfg_m_enabled :
    let o := exec (.cfgM magDefault) (running .serial [two, two, two, two])
    result o = some (.ok .unit) ∧ lifeAfter .m o = some .enabled ∧
    history o = wrote .m [0x20, 0x10] ++ wrote .m [0x21, 0x00] ++ wrote .m [0x23, 0x00] ++
      wrote .m [0x22, 0x00] := by decide
theorem test_cfg_m_addressed_is_refused :
    mark (exec (.cfgM magDefault) (fresh .addressed [])) =
      some (true, some (.refused .unimplemented)) := by decide

/-- S9: the enable register is written again, and the sensor stays enabled. -/
theorem test_en_xl_again :
    let o := exec .enXl (running .serial [two])
    result o = some (.ok .unit) ∧ lifeAfter .xl o = some .enabled ∧
    history o = wrote .ag [0x1F, 0x38] := by decide
theorem test_en_g_unconfigured :
    let o := exec .enG (fresh .serial [])
    result o = some (.err (.sequenceError (.en .g) .configured)) ∧ history o = [] := by decide
theorem test_en_g_fails :
    let o := exec .enG { fresh .serial [.fail] with lifeG := .configured, settingsG := some gyroDefault }
    result o = some (.err (.busError .write .ag 0x1E)) ∧ lifeAfter .g o = some .configured ∧
    history o = [.cs .ag .low, .xfer [0x1E, 0x38] .fail, .cs .ag .high] := by decide
theorem test_en_m :
    let o := exec .enM { fresh .serial [two] with lifeM := .configured, settingsM := some magDefault }
    result o = some (.ok .unit) ∧ lifeAfter .m o = some .enabled ∧
    history o = wrote .m [0x22, 0x00] := by decide

/-- R271 and program P1. -/
theorem test_rd_xl :
    let o := exec .rdXl (running .serial [.ok [0, 0x00, 0x00, 0x01, 0x00, 0xFF, 0xFF]])
    result o = some (.ok (.phys3 ⟨0x00000000, 0x387FDA40, 0xB87FDA40⟩)) ∧
    history o = [.cs .ag .low, .xfer [0xA8, 0, 0, 0, 0, 0, 0]
      (.ok [0, 0x00, 0x00, 0x01, 0x00, 0xFF, 0xFF]), .cs .ag .high] := by decide
/-- S3. -/
theorem test_rd_xl_too_early :
    let o := exec .rdXl (readyXl .serial [])
    result o = some (.err (.sequenceError (.rd .xl) .enabled)) ∧ history o = [] := by decide
/-- R272. -/
theorem test_rd_g :
    result (exec .rdG (running .serial [.ok [0, 0xE8, 0x03, 0x18, 0xFC, 0x00, 0x00]])) =
      some (.ok (.phys3 ⟨0x410C0000, 0xC10C0000, 0x00000000⟩)) := by decide
/-- R273. -/
theorem test_rd_m :
    result (exec .rdM (running .serial [.ok [0, 0x00, 0x80, 0xFF, 0x7F, 0x00, 0x40]])) =
      some (.ok (.phys3 ⟨0xC092CCF7, 0x4092CBD1, 0x4012CCF7⟩)) := by decide
/-- R274, on the other bus: program P3, command 6. -/
theorem test_rd_t :
    let o := exec .rdT (fresh .addressed [.ok [0x90, 0x01]])
    result o = some (.ok (.phys 0x42480000)) ∧
    history o = [.iwrrd 0x6B [0x15] 2 (.ok [0x90, 0x01])] := by decide
/-- R275. -/
theorem test_rdraw_xl :
    let o := exec .rdrawXl (running .addressed [.ok [0x34, 0x12, 0, 0, 0, 0x80]])
    result o = some (.ok (.raw3 ⟨4660, 0, -32768⟩)) ∧
    history o = [.iwrrd 0x6B [0x28] 6 (.ok [0x34, 0x12, 0, 0, 0, 0x80])] := by decide
/-- R276. -/
theorem test_rdraw_g :
    result (exec .rdrawG (running .serial [.ok [0, 0xFF, 0xFF, 0x01, 0x00, 0x00, 0x00]])) =
      some (.ok (.raw3 ⟨-1, 1, 0⟩)) := by decide
/-- R277, and a short answer (R117). -/
theorem test_rdraw_m_short :
    let o := exec .rdrawM (running .serial [.ok [0, 1, 2, 3, 4, 5]])
    result o = some (.err (.busError .read .m 0x28)) ∧
    history o = [.cs .m .low, .xfer [0xE8, 0, 0, 0, 0, 0, 0] (.ok [0, 1, 2, 3, 4, 5]),
      .cs .m .high] := by decide
/-- R278. -/
theorem test_rdraw_t :
    result (exec .rdrawT (fresh .serial [.ok [0, 0x70, 0xFE]])) = some (.ok (.raw (-400))) := by decide

/-! ### Transport (section 2.1) -/

/-- S6. -/
theorem test_twr_ag :
    let o := exec (.twrAg 0x10 [0x60]) (fresh .serial [two])
    result o = some (.ok .unit) ∧ history o = wrote .ag [0x10, 0x60] := by decide
theorem test_twr_ag_short :
    result (exec (.twrAg 0x10 [0x60]) (fresh .serial [.ok [0]])) =
      some (.err (.busError .write .ag 0x10)) := by decide
theorem test_twr_m_burst :
    history (exec (.twrM 0x20 [0x10, 0x00]) (fresh .serial [.ok [0, 0, 0]])) =
      [.cs .m .low, .xfer [0x60, 0x10, 0x00] (.ok [0, 0, 0]), .cs .m .high] := by decide
theorem test_twr_m_addressed :
    mark (exec (.twrM 0x20 [0x10]) (fresh .addressed [])) =
      some (true, some (.refused .unimplemented)) := by decide
/-- S8. -/
theorem test_trd_ag_fails :
    let o := exec (.trdAg 0x20 6) (fresh .serial [.fail])
    result o = some (.err (.busError .read .ag 0x20)) ∧
    history o = [.cs .ag .low, .xfer [0xA0, 0, 0, 0, 0, 0, 0] .fail, .cs .ag .high] := by decide
/-- S7. -/
theorem test_trd_ag_addressed :
    let o := exec (.trdAg 0x28 6) (fresh .addressed [.ok [1, 2, 3, 4, 5, 6]])
    result o = some (.ok (.bytes [1, 2, 3, 4, 5, 6])) ∧
    history o = [.iwrrd 0x6B [0x28] 6 (.ok [1, 2, 3, 4, 5, 6])] := by decide
theorem test_trd_m :
    result (exec (.trdM 0x28 6) (fresh .serial [.ok [9, 1, 2, 3, 4, 5, 6]])) =
      some (.ok (.bytes [1, 2, 3, 4, 5, 6])) := by decide
theorem test_transport_refusals :
    mark (exec (.trdAg 0x28 33) (fresh .serial [])) = some (true, some (.refused .operandOutOfRange)) ∧
    mark (exec (.trdM 0x40 1) (fresh .serial [])) = some (true, some (.refused .operandOutOfRange)) ∧
    mark (exec (.twrAg 0x10 []) (fresh .addressed [])) =
      some (true, some (.refused .operandOutOfRange)) := by decide

/-! ### Encoder (R189 to R191, section 2.2) -/

theorem test_enc_xl : result (exec (.encXl { accelDefault with
      odr := .hz952, scale := .g16, bwSelect := .byBwXl, bandwidth := .hz50 }) (fresh .serial [])) =
    some (.ok (.entries [⟨0x20, 0xCF, .control⟩, ⟨0x21, 0x00, .control⟩, ⟨0x1F, 0x38, .enable⟩])) := by
  decide
theorem test_enc_xl_axes : result (exec (.encXl { accelDefault with
      enableY := false, enableZ := false, highRes := true, hrCutoff := .odrDiv400 }) (fresh .serial [])) =
    some (.ok (.entries [⟨0x20, 0x60, .control⟩, ⟨0x21, 0xE0, .control⟩, ⟨0x1F, 0x08, .enable⟩])) := by
  decide
theorem test_enc_g : result (exec (.encG { gyroDefault with
      odr := .hz952, scale := .dps2000, bandwidth := .bw3, lowPower := true, hpfEnable := true
      hpfCutoff := .c9, outSel := .path1, intSel := .path2 }) (fresh .serial [])) =
    some (.ok (.entries [⟨0x10, 0xDB, .control⟩, ⟨0x11, 0x09, .control⟩, ⟨0x12, 0xC9, .control⟩,
      ⟨0x1E, 0x38, .enable⟩])) := by decide
theorem test_enc_m : result (exec (.encM { magDefault with
      odr := .hz80, fastOdr := true, xyMode := .ultraHigh, zMode := .ultraHigh, scale := .g16
      mode := .single })
      (fresh .serial [])) =
    some (.ok (.entries [⟨0x20, 0x7E, .control⟩, ⟨0x21, 0x60, .control⟩, ⟨0x23, 0x0C, .control⟩,
      ⟨0x22, 0x01, .enable⟩])) := by decide
/-- `MAG_SIM = 1`. -/
theorem test_enc_m_sim : ctrl3M { defaultCfg .serial with magSim := 1 }
    { magDefault with mode := .powerDown, lowPower := true } = 0x27 := by decide

/-! ### Conversion (section 2.3) -/

theorem test_sens : result (exec (.sensXl .g16) (fresh .serial [])) = some (.ok (.phys 0x3A3FE3B0)) ∧
    result (exec (.sensG .dps245) (fresh .serial [])) = some (.ok (.phys 0x3C0F5C29)) ∧
    result (exec (.sensM .g12) (fresh .serial [])) = some (.ok (.phys 0x39E1719F)) := by decide
theorem test_conv_xl : result (exec (.convXl .g2 1000 32767 (-32768)) (fresh .serial [])) =
    some (.ok (.phys3 ⟨0x3D79DB22, 0x3FFFD840, 0xBFFFDA40⟩)) := by decide
/-- R233. -/
theorem test_conv_g : result (exec (.convG .dps2000 32767 (-32768) 1000) (fresh .serial [])) =
    some (.ok (.phys3 ⟨0x450F5B0A, 0xC50F5C29, 0x428C0000⟩)) := by decide
/-- R234. -/
theorem test_conv_m : result (exec (.convM .g4 1000 (-1000) 16384) (fresh .serial [])) =
    some (.ok (.phys3 ⟨0x3E0F5C29, 0xBE0F5C29, 0x4012CCF7⟩)) := by decide
/-- R228: the exact zero is `+0.0`. -/
theorem test_tconv_zero : result (exec (.tconv (-400)) (fresh .serial [])) =
    some (.ok (.phys 0x00000000)) := by decide
theorem test_tconv : temp (defaultCfg .serial) (-401) = 0xBD800000 ∧
    temp (defaultCfg .serial) 32767 = 0x45018F00 ∧ temp (defaultCfg .serial) 0x8000 = 0xC4FCE000 := by
  decide

/-! ### Wire-frame rows (R81 to R88, section 2.1) -/

theorem test_spi_ag_write : history (exec (.spiAgWrite 0x7F [0x01]) (fresh .serial [two])) =
    wrote .ag [0x7F, 0x01] := by decide
theorem test_spi_ag_read : history (exec (.spiAgRead 0x15 2) (fresh .serial [.ok [0, 0, 0]])) =
    [.cs .ag .low, .xfer [0x95, 0, 0] (.ok [0, 0, 0]), .cs .ag .high] := by decide
theorem test_spi_m_write1 : history (exec (.spiMWrite1 0x22 0x00) (fresh .serial [two])) =
    wrote .m [0x22, 0x00] := by decide
theorem test_spi_m_writeb :
    history (exec (.spiMWriteB 0x3F [0xAA, 0xBB]) (fresh .serial [.ok [0, 0, 0]])) =
      [.cs .m .low, .xfer [0x7F, 0xAA, 0xBB] (.ok [0, 0, 0]), .cs .m .high] := by decide
theorem test_spi_m_read1 : history (exec (.spiMRead1 0x0F) (fresh .serial [two])) =
    wrote .m [0x8F, 0x00] := by decide
theorem test_spi_m_readb : history (exec (.spiMReadB 0x3F 2) (fresh .serial [.ok [0, 0, 0]])) =
    [.cs .m .low, .xfer [0xFF, 0, 0] (.ok [0, 0, 0]), .cs .m .high] := by decide
theorem test_i2c_ag_ptr :
    history (exec (.i2cAgPtr 0xFF (.read 1)) (fresh .addressed [.ok [0]])) =
      [.iwrrd 0x6B [0xFF] 1 (.ok [0])] := by decide
theorem test_frame_of_other_bus :
    exec (.i2cAgPtr 0x28 (.read 6)) (fresh .serial []) = .refused (.frameOfOtherBus .serial) := rfl

/-! ### Steps -/

/-- R94. -/
theorem test_step_reserved :
    mark (step { fresh .serial [] with inbox := [.command 0x13 .none] }) =
      some (true, some (.refused .reservedCommand)) := by decide
theorem test_step_fetch_word :
    result (step (State.reset.withFetchWord 8 0x20)) =
      some (.err (.sequenceError (.en .xl) .configured)) := by decide
/-- R367: the chip-select stays low, and there is no further step. -/
theorem test_step_hang :
    ∃ t, exec (.trdAg 0x28 6) (fresh .serial [.noAnswer]) = .next t ∧ t.csAg = .low ∧
      t.hist = [.cs .ag .low] ∧ step t = .fault (.hung (.xfer [0xA8, 0, 0, 0, 0, 0, 0])) :=
  ⟨_, rfl, rfl, rfl, rfl⟩
theorem test_payload_mismatch_stops :
    step { fresh .serial [] with inbox := [.command 0x20 (.raw 0)] } =
      .refused (.undecodable .payloadMismatch) := rfl

/-! ### Assembler (R97, R98, section 3) -/

theorem test_asm_settings : assemble [.word "ENC.G", .lbrace, .word "scale", .eq, .word "Dps500", .comma,
      .word "odr", .eq, .word "Hz238", .comma, .word "bandwidth", .eq, .word "Bw1", .rbrace] =
    some [.encG { gyroDefault with scale := .dps500, odr := .hz238, bandwidth := .bw1 }] := by decide
theorem test_asm_transport : assemble [.word "TWR.AG", .num 0x22, .comma, .lbrack, .num 4, .rbrack] =
      some [.twrAg 0x22 [4]] ∧
    assemble [.word "TRD.M", .num 0x28, .comma, .num 6] = some [.trdM 0x28 6] := by decide
theorem test_asm_conv : assemble [.word "CONV.XL", .word "G16", .comma, .lparen, .num 1000, .comma,
      .num 32767, .comma, .num (-32768), .rparen] = some [.convXl .g16 1000 32767 (-32768)] := by decide
theorem test_asm_rejects : assemble [.word "TWR.AG", .num 256, .comma, .lbrack, .num 4, .rbrack] = none ∧
    assemble [.word "SENS.G", .word "G2"] = none ∧ assemble [.word "TCONV", .num 32768] = none := by
  decide

/-! ### Witnesses: states and operands that meet the hypotheses of each statement -/

theorem witness_DecodeOfEncodeGivesInstruction :
    (Instr.spiAgWrite 0x7F [0xFF]).wf = true ∧ (Instr.spiMWriteB 0x3F [1, 2]).wf = true ∧
    (Instr.i2cAgPtr 0xFF (.write [0])).wf = true ∧ (Instr.twrAg 0x80 []).wf = true := by decide

theorem witness_DecodedRequestIsItsEncoding :
    decode (.frame (.spi .m [0xFF, 0, 0])) = .ok (.spiMReadB 0x3F 2) ∧
    decode (.command 0xA0 (.raw 0x8000)) = .ok (.tconv 0x8000) := by decide

theorem witness_ReservedCommandWordIsRefused :
    ∃ s : State, s.waiting = none ∧ s.inbox = [.command 0x13 .none] ∧
      ∀ w ∈ [0x00, 0x0F, 0x13, 0x23, 0x34, 0x44, 0x52, 0x62, 0x73, 0x83, 0x93, 0xA1, 0xB0, 0xFF],
        (let op := w / 16
         let tgt := w % 16
         ¬((op = 1 ∨ op = 2 ∨ op = 7 ∨ op = 8 ∨ op = 9) ∧ tgt ≤ 2 ∨
           (op = 3 ∨ op = 4) ∧ tgt ≤ 3 ∨ (op = 5 ∨ op = 6) ∧ tgt ≤ 1 ∨ op = 10 ∧ tgt = 0)) :=
  ⟨{ State.reset with inbox := [.command 0x13 .none] }, rfl, rfl, by decide⟩

theorem witness_StepRunsDecodedInstruction :
    (∃ s : State, s.waiting = none ∧ s.inbox = [.command 0x33 .none] ∧
      decode (.command 0x33 .none) = .ok .rdT) ∧
    State.reset.waiting = none ∧ decodeTableWord 8 0xA0 = some (.tconv 0) :=
  ⟨⟨{ State.reset with inbox := [.command 0x33 .none] }, rfl, rfl, rfl⟩, rfl, rfl⟩

theorem witness_HungBlockStopsAndIdleBlockWaits :
    (∃ s : State, s.waiting = some (.xfer [0x95, 0, 0])) ∧
    State.reset.waiting = none ∧ State.reset.inbox = [] :=
  ⟨⟨{ State.reset with waiting := some (.xfer [0x95, 0, 0]) }, rfl⟩, rfl, rfl⟩

theorem witness_SerialAddressByteByRule :
    (0x7F : Byte).toNat ≤ 0x7F ∧ (0x3F : Byte).toNat ≤ 0x3F ∧
    abyte 1 .m 0x3F 2 = 0xFF ∧ abyte 1 .m 0x3F 1 = 0xBF ∧ abyte 1 .ag 0x7F 6 = 0xFF := by decide

theorem witness_RegisterListDecodesToRecord :
    sensorOf (.m magDefault) = sensorOf (.m magDefault) ∧
    toRegisterBits (defaultCfg .serial) (.m magDefault) =
      toRegisterBits (defaultCfg .addressed) (.m magDefault) := by decide

theorem witness_ControlEntriesComeBeforeEnable :
    (defaultCfg .serial).regmap = defaultRegMap := rfl

theorem witness_one : fVal 0x3F800000 = some 1 := by
  simp only [fVal, show fView 0x3F800000 = .fin false 8388608 (-23) by decide]
  norm_num

theorem witness_largest : fVal 0x7F7FFFFF = some (2 ^ 128 - 2 ^ 104) := by
  simp only [fVal, show fView 0x7F7FFFFF = .fin false 16777215 104 by decide]
  norm_num

theorem witness_FmulRoundsOnceToNearestEven : fVal 0x3F800000 = some 1 ∧
    fVal 0x7F7FFFFF = some (2 ^ 128 - 2 ^ 104) ∧
    |(1 : ℚ) * (2 ^ 128 - 2 ^ 104)| < 2 ^ 128 - 2 ^ 103 :=
  ⟨witness_one, witness_largest, by rw [abs_of_nonneg] <;> norm_num⟩

theorem witness_FdivRoundsOnceToNearestEven : fVal 0x7F7FFFFF = some (2 ^ 128 - 2 ^ 104) ∧
    fVal 0x3F800000 = some 1 ∧ (1 : ℚ) ≠ 0 ∧ |(2 ^ 128 - 2 ^ 104) / (1 : ℚ)| < 2 ^ 128 - 2 ^ 103 :=
  ⟨witness_largest, witness_one, one_ne_zero, by rw [abs_of_nonneg] <;> norm_num⟩

theorem witness_FaddRoundsOnceToNearestEven : fVal 0x7F7FFFFF = some (2 ^ 128 - 2 ^ 104) ∧
    fVal 0x3F800000 = some 1 ∧ |(2 ^ 128 - 2 ^ 104) + (1 : ℚ)| < 2 ^ 128 - 2 ^ 103 :=
  ⟨witness_largest, witness_one, by rw [abs_of_nonneg] <;> norm_num⟩

theorem witness_ProductsHaveNoCornerCases :
    defaultSens.gDps2000 ∈ [defaultSens.xlG2, defaultSens.gDps2000] ∧ (0x8001 : I16) ≠ 0 ∧
    (0x8001 : I16) ≠ 0x8000 ∧ phys (-0x8001) defaultSens.gDps2000 = 0x450F5B0A ∧
    phys 0x8000 defaultSens.gDps2000 = 0xC50F5C29 := by decide

theorem witness_TwrWritesOneFrame :
    (let s := fresh .serial [.ok (List.replicate 33 0)]
     let data : List Byte := List.replicate 32 0xFF
     1 ≤ data.length ∧ data.length ≤ s.cfg.maxBurst ∧ s.nextDraw = .ok (List.replicate 33 0) ∧
     s.cfg.kind = .serial ∧ (List.replicate 33 (0 : Byte)).length = data.length + 1 ∧
     (0x7F : Byte).toNat ≤ 0x7F ∧ (0x3F : Byte).toNat ≤ 0x3F) ∧
    (let s := fresh .addressed [.ok []]
     1 ≤ [(0 : Byte)].length ∧ [(0 : Byte)].length ≤ s.cfg.maxBurst ∧ s.nextDraw = .ok [] ∧
     s.cfg.kind ≠ .serial) := by decide

theorem witness_TrdAnswersDataBytes :
    (let s := fresh .serial [.ok [9, 1]]
     s.nextDraw = .ok (received s.cfg 9 [1]) ∧ 1 ≤ s.cfg.maxBurst ∧ (0x7F : Byte).toNat ≤ 0x7F ∧
     (0x3F : Byte).toNat ≤ 0x3F) ∧
    (let s := fresh .addressed [.ok [1]]
     s.nextDraw = .ok (received s.cfg 9 [1]) ∧ s.cfg.kind ≠ .serial) := by decide

theorem witness_TransportFailureIsBusError :
    (let s := fresh .serial [.ok [0]]
     s.nextDraw = drawOf (.ok [0]) ∧ s.cfg.kind = .serial ∧ [(0 : Byte)].length ≠ [(0 : Byte)].length + 1 ∧
     [(0 : Byte)].length ≠ (if s.cfg.kind = .serial then 1 + 1 else 1)) ∧
    (let s := fresh .addressed [.fail]
     s.nextDraw = drawOf .fail ∧ s.cfg.kind ≠ .serial) ∧
    (let s := fresh .addressed [.ok []]
     s.nextDraw = drawOf (.ok []) ∧
     ([] : List Byte).length ≠ (if s.cfg.kind = .serial then 1 + 1 else 1)) := by decide

theorem witness_TransportOperandsOutOfRangeAreRefused :
    let s := fresh .serial []
    s.cfg.maxBurst < 33 ∧ s.cfg.kind = .serial ∧ 0x7F < (0x80 : Byte).toNat ∧
    0x3F < (0x40 : Byte).toNat := by decide

theorem witness_MagnetometerOnAddressedBusIsRefused :
    let s := fresh .addressed []
    s.cfg.kind = .addressed ∧ 1 ≤ s.cfg.maxBurst ∧ s.cfg.maxBurst = 32 := by decide

theorem witness_UnansweredTransferHangsTheBlock :
    (let s := fresh .serial [.noAnswer]
     s.nextDraw = .noAnswer ∧ s.cfg.kind = .serial ∧ (0x7F : Byte).toNat ≤ 0x7F ∧
     1 ≤ s.cfg.maxBurst) ∧
    (let s := fresh .addressed [.noAnswer]
     s.nextDraw = .noAnswer ∧ s.cfg.kind ≠ .serial) := by decide

theorem witness_WireFrameRowsPutTheirFrame :
    (let s := fresh .serial [.ok [0, 1, 2]]
     let data : List Byte := [7, 8]
     s.cfg.kind = .serial ∧ 2 ≤ data.length ∧ data.length ≤ s.cfg.maxBurst ∧
     s.nextDraw = .ok [0, 1, 2] ∧ [(0 : Byte), 1, 2].length = data.length + 1 ∧
     (0x3F : Byte).toNat ≤ 0x3F) ∧
    (let s := fresh .serial [.ok [0, 1]]
     s.nextDraw = .ok [0, 1] ∧ [(0 : Byte), 1].length = [(7 : Byte)].length + 1) ∧
    (let s := fresh .addressed [.ok [7, 8]]
     s.cfg.kind = .addressed ∧ s.nextDraw = .ok [7, 8]) := by decide

theorem witness_WireFrameRowsEqualTransportCommands :
    (fresh .serial []).cfg.kind = .serial ∧ (fresh .addressed []).cfg.kind = .addressed ∧
    (0x7F : Byte).toNat ≤ 0x7F ∧ (0x3F : Byte).toNat ≤ 0x3F ∧
    2 ≤ (fresh .serial []).cfg.maxBurst := by decide

theorem witness_WireFrameRowsOutOfForm :
    frameKind (.spiMRead1 0x40) = some .serial ∧ (Instr.spiMRead1 0x40).wf = false ∧
    (fresh .serial []).cfg.kind = .serial ∧ (fresh .addressed []).cfg.kind ≠ .serial ∧
    (fresh .serial []).cfg.maxBurst < frameBytes (.spiAgRead 0x00 33) := by decide

theorem witness_ConfigureWritesThenStores :
    (let s := running .serial [two, two, two]
     (s.cfg.kind = .addressed → sensorOf (.xl accelDefault) ≠ .m) ∧
     (toRegisterBits s.cfg (.xl accelDefault)).length = 3 ∧ s.life .xl = .enabled ∧
     s.nextDraw = two ∧ s.takeDraw.nextDraw = two ∧ s.takeDraw.takeDraw.nextDraw = two) ∧
    (let s := fresh .addressed [.ok [], .ok []]
     s.life .xl ≠ .enabled ∧ (toRegisterBits s.cfg (.xl accelDefault)).dropLast.length = 2 ∧
     s.nextDraw = .ok [] ∧ s.takeDraw.nextDraw = .ok [] ∧ s.cfg.kind ≠ .serial) := by decide

theorem witness_nextDraws : (fresh .serial [two, .fail]).nextDraws ([[0, 0]].map .ok ++ [drawOf .fail]) :=
  ⟨rfl, rfl, trivial⟩

theorem witness_ConfigureStopsAtFirstFailure :
    let s := fresh .serial [two, .fail]
    (toRegisterBits s.cfg (.xl accelDefault)).dropLast =
      [⟨0x20, 0x60, .control⟩] ++ ⟨0x21, 0x00, .control⟩ :: [] ∧ s.life .xl ≠ .enabled ∧
    s.cfg.kind = .serial := by decide

theorem witness_EnableWritesEnableRegister :
    let s := readyXl .serial [two]
    (s.cfg.kind = .addressed → Sensor.xl ≠ .m) ∧ s.life .xl ≠ .unconfigured ∧
    s.settings .xl = some (.xl accelDefault) ∧
    (toRegisterBits s.cfg (.xl accelDefault)).getLast? =
      some ⟨s.cfg.regmap.ctrlReg5Xl, 0x38, .enable⟩ ∧ s.nextDraw = .ok [0, 0] := by decide

theorem witness_FailedEnableKeepsLifecycle :
    let s := readyXl .serial [.fail]
    s.life .xl ≠ .unconfigured ∧ s.settings .xl = some (.xl accelDefault) ∧
    (toRegisterBits s.cfg (.xl accelDefault)).getLast? = some ⟨0x1F, 0x38, .enable⟩ ∧
    s.nextDraw = drawOf .fail := by decide

theorem witness_ReadConvertsTheBurst :
    (let s := running .serial [.ok [9, 1, 2, 3, 4, 5, 6]]
     s.life .m = .enabled ∧ s.settings .m = some (.m magDefault) ∧ s.cfg.kind ≠ .addressed ∧
     s.nextDraw = .ok (received s.cfg 9 [1, 2, 3, 4, 5, 6])) ∧
    (let s := running .addressed [.ok [1, 2, 3, 4, 5, 6]]
     s.life .g = .enabled ∧ s.settings .g = some (.g gyroDefault) ∧ Sensor.g ≠ .m ∧
     s.nextDraw = .ok (received s.cfg 9 [1, 2, 3, 4, 5, 6])) := by decide

theorem witness_RawReadAnswersTheBurst :
    let s := running .serial [.ok [9, 1, 2, 3, 4, 5, 6]]
    s.life .xl = .enabled ∧ s.nextDraw = .ok (received s.cfg 9 [1, 2, 3, 4, 5, 6]) ∧
    s.cfg.kind ≠ .addressed := by decide

theorem witness_TemperatureReadsAnswer :
    (let s := fresh .serial [.ok [9, 1, 2]]
     s.nextDraw = .ok (received s.cfg 9 [1, 2])) ∧
    (let s := fresh .addressed [.ok [1, 2]]
     s.nextDraw = .ok (received s.cfg 9 [1, 2])) := by decide

theorem witness_SequenceErrorsByRule :
    (fresh .serial []).cfg.kind ≠ .addressed ∧ (fresh .serial []).life .g = .unconfigured ∧
    (readyXl .serial []).life .xl ≠ .enabled ∧
    (∃ t, exec .rdXl (readyXl .serial []) = .next t ∧
      t.reply = some (.err (.sequenceError (.rd .xl) .enabled))) :=
  ⟨by decide, by decide, by decide, _, rfl, rfl⟩

theorem witness_FailedReadGivesNoSample :
    (let s := running .serial [.ok [0, 1, 2, 3, 4, 5]]
     s.nextDraw = drawOf (.ok [0, 1, 2, 3, 4, 5]) ∧ s.life .g = .enabled ∧
     s.settings .g = some (.g gyroDefault) ∧
     [(0 : Byte), 1, 2, 3, 4, 5].length ≠ (if s.cfg.kind = .serial then 7 else 6) ∧
     [(0 : Byte), 1, 2, 3, 4, 5].length ≠ (if s.cfg.kind = .serial then 3 else 2)) ∧
    (let s := running .addressed [.fail]
     s.nextDraw = drawOf .fail) := by decide

theorem witness_PureCommandsChangeOnlyTheReply : isPure (.tconv 0) = true := rfl

theorem witness_TransportAndReadFrame :
    devUsed (.trdAg 0x0F 1) = some .ag ∧ writesLife (.trdAg 0x0F 1) = none ∧
    ∃ t, exec (.trdAg 0x0F 1) (fresh .serial [.ok [0, 0x68]]) = .next t := ⟨rfl, rfl, _, rfl⟩

theorem witness_ConfigureFrame :
    ∃ t, exec (cfgInstr (.xl accelDefault)) (fresh .serial [two, two]) = .next t := ⟨_, rfl⟩

theorem witness_EnableFrame : ∃ t, exec (enInstr .xl) (readyXl .serial [two]) = .next t := ⟨_, rfl⟩

/-- A state with every sensor running meets the invariant, and so does one that hangs. -/
theorem witness_StepKeepsInvariant :
    (let s := { running .serial [two] with inbox := [.command 0x20 .none] }
     s.Inv ∧ ∃ t, step s = .next t) ∧
    (let s := { running .serial [.noAnswer] with inbox := [.command 0x33 .none] }
     s.Inv ∧ ∃ t, step s = .next t ∧ t.csAg = .low) := by
  refine ⟨⟨⟨fun k => ?_, fun _ => ⟨rfl, rfl⟩, fun _ => ⟨rfl, rfl⟩⟩, _, rfl⟩,
    ⟨⟨fun k => ?_, fun _ => ⟨rfl, rfl⟩, fun _ => ⟨rfl, rfl⟩⟩, _, rfl, rfl⟩⟩ <;>
    cases k <;> decide

theorem witness_EveryCommandEndsInNextState :
    (fresh .addressed []).SlotsAgree ∧ frameKind (.i2cAgPtr 0x28 (.read 6)) = some .addressed ∧
    (fresh .addressed []).cfg.kind = .addressed := by
  refine ⟨fun k => ?_, rfl, rfl⟩
  cases k <;> decide

theorem witness_ConfigurationIsNeverWritten :
    ∃ t, step { fresh .serial [two, two] with inbox := [.command 0x10 (.accel accelDefault)] } =
      .next t := ⟨_, rfl⟩

theorem witness_RefusedMarkIsSticky :
    (let s := { fresh .serial [] with inbox := [.command 0xFF .none] }
     s.refused = false ∧ ∃ t, step s = .next t ∧ t.refused = true) ∧
    (∃ t, exec (.trdAg 0 0) (fresh .serial []) = .next t ∧
      t.reply = some (.refused .operandOutOfRange)) := ⟨⟨rfl, _, rfl, rfl⟩, _, rfl, rfl⟩

theorem witness_LifecycleTransitions :
    (∃ t, exec (.cfgXl accelDefault) (fresh .serial [two, two]) = .next t ∧
      t.life .xl ≠ (fresh .serial [two, two]).life .xl) ∧
    (∃ t, exec .enXl (readyXl .serial [two]) = .next t ∧
      t.life .xl ≠ (readyXl .serial [two]).life .xl) :=
  ⟨⟨_, rfl, by decide⟩, _, rfl, by decide⟩

theorem witness_LifecycleNeverFallsBack :
    ∃ t, step { readyXl .serial [two] with inbox := [.command 0x20 .none] } = .next t ∧
      t.life .xl = .enabled := ⟨_, rfl, rfl⟩

theorem witness_ErrorsKeepLifecycleAndSettings :
    (∃ t, exec .enG (fresh .serial []) = .next t ∧
      t.reply = some (.err (.sequenceError (.en .g) .configured))) ∧
    (∃ t, exec (.trdM 0x28 6) (fresh .serial [.fail]) = .next t ∧
      t.reply = some (.err (.busError .read .m 0x28))) := ⟨⟨_, rfl, rfl⟩, _, rfl, rfl⟩

theorem witness_BusTrafficIsWholeOperations :
    ∃ t, step { fresh .addressed [.noAnswer] with inbox := [.command 0x33 .none] } = .next t ∧
      t.waiting = some (.iwrrd 0x6B [0x15] 2) := ⟨_, rfl, rfl⟩

theorem witness_SensorsAreIndependent :
    sensorNamed .enG ≠ some .xl ∧ sensorNamed (.twrAg 0x20 [0]) ≠ some .xl := by decide

theorem witness_PseudoInstructionsExpandByRule :
    [Tok.lbrace, .rbrace] = [.word "default"] ∨ [Tok.lbrace, .rbrace] = [.lbrace, .rbrace] := .inr rfl

end Sys2Proof.Tests
end

/-!
PROOF. Binary32 rounding (00_scope.md R10): `rnd` gives the finite binary32 nearest to an exact value,
ties to even.

A finite binary32 is a multiple of the grid step `2^q`, or it lies below `2^(23+q)`. So for a value in
the binade of `q` the nearest multiple of `2^q` is the nearest binary32 of all.
-/

namespace Sys2Proof.Rounding

open Sys2Proof.Machine

/-! ### Powers of two -/

theorem zpow_split (e q : ℤ) (h : q ≤ e) : (2 : ℚ) ^ e = 2 ^ (e - q).toNat * 2 ^ q := by
  rw [← zpow_natCast, Int.toNat_of_nonneg (by omega), ← zpow_add₀ two_ne_zero, sub_add_cancel]

theorem natCast_mul_zpow (k : ℕ) (q : ℤ) : ((2 ^ k : ℕ) : ℚ) * 2 ^ q = 2 ^ (k + q) := by
  rw [zpow_add₀ two_ne_zero, zpow_natCast]
  push_cast
  rfl

/-! ### Signs -/

/-- The sign of a binary32 as a factor. -/
def sgn (neg : Bool) : ℚ := if neg then -1 else 1

theorem sgn_xor (s t : Bool) : sgn (s ^^ t) = sgn s * sgn t := by
  cases s <;> cases t <;> simp [sgn]

theorem sgn_mul_self (s : Bool) : sgn s * sgn s = 1 := by
  cases s <;> simp [sgn]

theorem sgn_div (s t : Bool) : sgn s / sgn t = sgn s * sgn t := by
  cases s <;> cases t <;> norm_num [sgn]

@[simp] theorem abs_sgn (s : Bool) : |sgn s| = 1 := by
  cases s <;> simp [sgn]

theorem abs_sgn_mul (s : Bool) (x : ℚ) : |sgn s * x| = |x| := by
  rw [abs_mul, abs_sgn, one_mul]

/-- An integer is its sign times its magnitude. -/
theorem sgn_mul_natAbs (v : ℤ) : sgn (decide (v < 0)) * (v.natAbs : ℚ) = v := by
  rw [Nat.cast_natAbs, Int.cast_abs]
  rcases lt_or_ge v 0 with h | h
  · simp [sgn, h, abs_of_neg (Int.cast_lt_zero.mpr h : (v : ℚ) < 0)]
  · simp [sgn, not_lt.mpr h, abs_of_nonneg (Int.cast_nonneg h : (0 : ℚ) ≤ v)]

/-- A sign keeps integers integers. -/
theorem exists_int_eq_sgn_mul (neg : Bool) (j : ℤ) : ∃ i : ℤ, (i : ℚ) = sgn neg * j :=
  ⟨(if neg then -1 else 1) * j, by cases neg <;> simp [sgn]⟩

/-! ### Exact values -/

theorem fVal_of_fView {b : F32} {neg : Bool} {m : ℕ} {e : ℤ} (h : fView b = .fin neg m e) :
    fVal b = some (sgn neg * (m * 2 ^ e)) := by
  simp only [fVal, h, sgn, mul_assoc]

theorem fView_of_fVal {b : F32} {x : ℚ} (h : fVal b = some x) :
    ∃ neg m e, fView b = .fin neg m e ∧ x = sgn neg * (m * 2 ^ e) := by
  cases hv : fView b with
  | fin neg m e => exact ⟨neg, m, e, rfl, by simpa [fVal_of_fView hv] using h.symm⟩
  | nan => simp [fVal, hv] at h
  | inf neg => simp [fVal, hv] at h

/-- A finite pattern has a significand of 24 bits and an exponent of at least -149. -/
theorem fView_bounds {b : F32} {neg : Bool} {m : ℕ} {e : ℤ} (h : fView b = .fin neg m e) :
    m < 2 ^ 24 ∧ -149 ≤ e := by
  have hfrac : fFrac b < 0x800000 := Nat.mod_lt _ (by norm_num)
  unfold fView at h
  split_ifs at h <;> cases h <;> omega

/-- The low bit of a finite pattern is the parity of its significand. -/
theorem even_of_fView {b : F32} {neg : Bool} {m : ℕ} {e : ℤ} (h : fView b = .fin neg m e)
    (hm : m % 2 = 0) : b.getLsbD 0 = false := by
  have hfrac : fFrac b % 2 = 0 := by
    unfold fView at h
    split_ifs at h <;> cases h <;> omega
  have hb : b.toNat % 2 = 0 := by unfold fFrac at hfrac; omega
  simp [BitVec.getLsbD, Nat.testBit_zero, hb]

/-- A finite binary32 is on the grid of step `2^q`, or below the binade of that grid. -/
theorem onGrid_or_below {b : F32} {w : ℚ} (h : fVal b = some w) (q : ℤ) :
    (∃ j : ℤ, w = j * 2 ^ q) ∨ (-149 < q ∧ |w| < 2 ^ (23 + q)) := by
  obtain ⟨neg, m, e, hv, rfl⟩ := fView_of_fVal h
  obtain ⟨hm, he⟩ := fView_bounds hv
  rcases le_or_gt q e with hqe | hqe
  · obtain ⟨j, hj⟩ := exists_int_eq_sgn_mul neg (m * 2 ^ (e - q).toNat)
    refine .inl ⟨j, ?_⟩
    rw [hj, zpow_split e q hqe]
    push_cast
    ring
  · refine .inr ⟨by omega, ?_⟩
    have hm' : (m : ℚ) < 2 ^ 24 := by exact_mod_cast hm
    calc |sgn neg * (m * 2 ^ e)| = m * 2 ^ e := by
          rw [abs_sgn_mul, abs_of_nonneg (by positivity)]
      _ < 2 ^ 24 * 2 ^ e := mul_lt_mul_of_pos_right hm' (by positivity)
      _ = 2 ^ (24 + e) := by rw [zpow_add₀ two_ne_zero]; norm_num
      _ ≤ 2 ^ (23 + q) := zpow_le_zpow_right₀ one_le_two (by omega)

/-! ### Packing -/

theorem fPack_toNat (neg : Bool) {mag : ℕ} (h : mag < 0x80000000) :
    (fPack neg mag).toNat = (if neg then 0x80000000 else 0) + mag := by
  rw [fPack, BitVec.toNat_ofNat, Nat.mod_eq_of_lt]
  split <;> omega

theorem fPack_sign (neg : Bool) {mag : ℕ} (h : mag < 0x80000000) : fSign (fPack neg mag) = neg := by
  rw [fSign, BitVec.getLsbD, fPack_toNat neg h, Nat.testBit_eq_decide_div_mod_eq]
  cases neg <;> simp <;> omega

theorem fPack_exp (neg : Bool) {mag : ℕ} (h : mag < 0x80000000) :
    fExp (fPack neg mag) = mag / 0x800000 := by
  rw [fExp, fPack_toNat neg h]
  split <;> omega

theorem fPack_frac (neg : Bool) {mag : ℕ} (h : mag < 0x80000000) :
    fFrac (fPack neg mag) = mag % 0x800000 := by
  rw [fFrac, fPack_toNat neg h]
  split <;> omega

theorem fPack_even (neg : Bool) {mag : ℕ} (h : mag < 0x80000000) (heven : mag % 2 = 0) :
    (fPack neg mag).getLsbD 0 = false := by
  have hb : (fPack neg mag).toNat % 2 = 0 := by
    rw [fPack_toNat neg h]
    split <;> omega
  simp [BitVec.getLsbD, Nat.testBit_zero, hb]

theorem fView_fPack_subnormal (neg : Bool) {f : ℕ} (hf : f < 0x800000) :
    fView (fPack neg f) = .fin neg f (-149) := by
  have hmag : f < 0x80000000 := by omega
  rw [fView, fPack_sign neg hmag, fPack_exp neg hmag, fPack_frac neg hmag,
    Nat.div_eq_of_lt hf, Nat.mod_eq_of_lt hf]
  simp

theorem fView_fPack_normal (neg : Bool) {k f : ℕ} (hk : k < 0xFE) (hf : f < 0x800000) :
    fView (fPack neg ((k + 1) * 0x800000 + f)) = .fin neg (0x800000 + f) (k - 149) := by
  have hmag : (k + 1) * 0x800000 + f < 0x80000000 := by omega
  have hexp : ((k + 1) * 0x800000 + f) / 0x800000 = k + 1 := by omega
  have hfrac : ((k + 1) * 0x800000 + f) % 0x800000 = f := by omega
  rw [fView, fPack_sign neg hmag, fPack_exp neg hmag, fPack_frac neg hmag, hexp, hfrac,
    if_neg (by omega), if_neg (by omega), show ((k + 1 : ℕ) : ℤ) - 150 = k - 149 by omega]

/-- The significand `n` at exponent `k - 149`; `n = 2^24` has carried into the exponent field. -/
theorem fVal_fPack (neg : Bool) {k n : ℕ} (hfin : k * 0x800000 + n < 0x7F800000)
    (hlow : k = 0 ∨ 0x800000 ≤ n) (hhigh : n ≤ 0x1000000) :
    fVal (fPack neg (k * 0x800000 + n)) = some (sgn neg * (n * 2 ^ ((k : ℤ) - 149))) := by
  rcases lt_or_ge n 0x800000 with hsub | hnorm
  · obtain rfl : k = 0 := by omega
    simpa using fVal_of_fView (fView_fPack_subnormal neg hsub)
  obtain ⟨f, rfl⟩ := Nat.exists_eq_add_of_le hnorm
  rcases lt_or_ge f 0x800000 with hf | hcarry
  · rw [show k * 0x800000 + (0x800000 + f) = (k + 1) * 0x800000 + f by ring]
    exact fVal_of_fView (fView_fPack_normal neg (by omega) hf)
  · obtain rfl : f = 0x800000 := by omega
    rw [show k * 0x800000 + (0x800000 + 0x800000) = (k + 1 + 1) * 0x800000 + 0 by ring,
      fVal_of_fView (fView_fPack_normal neg (by omega) (by norm_num)),
      show ((k + 1 : ℕ) : ℤ) - 149 = (k - 149) + 1 by push_cast; ring, zpow_add_one₀ two_ne_zero]
    push_cast
    ring_nf

/-! ### Nearest multiple of a step -/

/-- `n * u` is a multiple of `u` nearest to `x`, and in a tie `n` is even. -/
def Nearest (u x : ℚ) (n : ℕ) : Prop :=
  2 * |n * u - x| ≤ u ∧ (2 * |n * u - x| = u → n % 2 = 0)

theorem Nearest.of_eq {u x : ℚ} {n : ℕ} (hu : 0 < u) (h : n * u = x) : Nearest u x n := by
  rw [Nearest, h, sub_self, abs_zero, mul_zero]
  exact ⟨hu.le, fun h0 => absurd h0 hu.ne⟩

theorem Nearest.of_lt {u x : ℚ} {n : ℕ} (h : 2 * |n * u - x| < u) : Nearest u x n :=
  ⟨h.le, fun h0 => absurd h0 h.ne⟩

theorem Nearest.dist_le {u x : ℚ} {n : ℕ} (h : Nearest u x n) : |n * u - x| ≤ u / 2 := by
  linarith [h.1]

theorem Nearest.scale {u x c : ℚ} {n : ℕ} (hc : 0 < c) (h : Nearest u x n) :
    Nearest (u * c) (x * c) n := by
  have habs : |n * (u * c) - x * c| = |n * u - x| * c := by
    rw [← mul_assoc, ← sub_mul, abs_mul, abs_of_pos hc]
  rw [Nearest, habs, ← mul_assoc]
  exact ⟨mul_le_mul_of_nonneg_right h.1 hc.le, fun h0 => h.2 (mul_right_cancel₀ hc.ne' h0)⟩

/-- No other multiple of the step is nearer, and one as near leaves `n` even. -/
theorem Nearest.le_multiple {u x : ℚ} {n : ℕ} (hu : 0 < u) (h : Nearest u x n) (j : ℤ) :
    |n * u - x| ≤ |j * u - x| ∧
      (j * u ≠ n * u → |j * u - x| = |n * u - x| → n % 2 = 0) := by
  obtain ⟨hnear, htie⟩ := h
  rcases eq_or_ne j n with rfl | hne
  · exact ⟨by simp, fun h0 => absurd (by simp) h0⟩
  have hapart : u ≤ |j * u - n * u| := by
    have hone : (1 : ℚ) ≤ |((j - n : ℤ) : ℚ)| := by
      exact_mod_cast Int.one_le_abs (sub_ne_zero.mpr hne)
    have heq : |j * u - n * u| = |((j - n : ℤ) : ℚ)| * u := by
      rw [← sub_mul, abs_mul, abs_of_pos hu]
      push_cast
      rfl
    rw [heq]
    exact le_mul_of_one_le_left hu.le hone
  have htri : |j * u - n * u| ≤ |j * u - x| + |n * u - x| := by
    rw [abs_sub_comm ((n : ℚ) * u) x]
    exact abs_sub_le _ _ _
  exact ⟨by linarith, fun _ heq => htie (by linarith)⟩

/-- Below `a ≤ x`, nothing is as near to `x` as the nearest multiple, if `a` is a multiple. -/
theorem Nearest.lt_below {u x w : ℚ} {n : ℕ} (hu : 0 < u) (h : Nearest u x n) (j : ℤ)
    (hx : j * u ≤ x) (hw : w < j * u) : |n * u - x| < |w - x| := by
  have hj := (h.le_multiple hu j).1
  rw [abs_of_nonpos (by linarith : (j : ℚ) * u - x ≤ 0)] at hj
  rw [abs_of_neg (by linarith : w - x < 0)]
  linarith

theorem Nearest.le_of_le {u x : ℚ} {n a : ℕ} (hu : 0 < u) (h : Nearest u x n) (ha : a * u ≤ x) :
    a ≤ n := by
  have hlt : ((a : ℚ) - 1) * u < n * u := by
    have := (abs_le.mp h.dist_le).1
    linarith
  have := lt_of_mul_lt_mul_right hlt hu.le
  have : (a : ℚ) < n + 1 := by linarith
  exact Nat.lt_succ_iff.mp (by exact_mod_cast this)

theorem Nearest.le_of_ge {u x : ℚ} {n b : ℕ} (hu : 0 < u) (h : Nearest u x n) (hb : x ≤ b * u) :
    n ≤ b := by
  have hlt : (n : ℚ) * u < (b + 1) * u := by
    have := (abs_le.mp h.dist_le).2
    linarith
  have := lt_of_mul_lt_mul_right hlt hu.le
  exact Nat.lt_succ_iff.mp (by exact_mod_cast this)

/-- The nearest multiple of the step of a value's own binade is its rounding. -/
theorem isRnd_of_nearest {neg : Bool} {x : ℚ} {q : ℤ} {n : ℕ} {r : F32}
    (hval : fVal r = some (sgn neg * (n * 2 ^ q))) (heven : n % 2 = 0 → r.getLsbD 0 = false)
    (hnear : Nearest (2 ^ q) x n) (hbinade : q = -149 ∨ 2 ^ (23 + q) ≤ x) :
    IsRnd (sgn neg * x) r := by
  refine ⟨_, hval, fun y w hw => ?_⟩
  have hu : (0 : ℚ) < 2 ^ q := by positivity
  have hdist : ∀ z : ℚ, |sgn neg * z - sgn neg * x| = |z - x| := fun z => by
    rw [← mul_sub, abs_sgn_mul]
  have hww : w = sgn neg * (sgn neg * w) := by rw [← mul_assoc, sgn_mul_self, one_mul]
  rw [hww, hdist, hdist]
  rcases onGrid_or_below hw q with ⟨j, rfl⟩ | ⟨hq, hlt⟩
  · obtain ⟨i, hi⟩ := exists_int_eq_sgn_mul neg j
    obtain ⟨hle, htie⟩ := hnear.le_multiple hu i
    rw [← mul_assoc, ← hi]
    exact ⟨hle, fun hne heq => heven (htie (fun h0 => hne (by rw [h0])) heq)⟩
  · have hx : 2 ^ (23 + q) ≤ x := hbinade.resolve_left (by omega)
    have hgrid : ((2 ^ 23 : ℤ) : ℚ) * 2 ^ q = 2 ^ (23 + q) := by
      exact_mod_cast natCast_mul_zpow 23 q
    have hlt' : sgn neg * w < 2 ^ (23 + q) :=
      (le_abs_self _).trans_lt (by rwa [abs_sgn_mul])
    have hfar := hnear.lt_below hu (2 ^ 23) (hgrid.trans_le hx) (hgrid ▸ hlt')
    exact ⟨hfar.le, fun _ heq => absurd heq hfar.ne'⟩

/-! ### Rounding an integer -/

/-- `roundShift` goes up past the midpoint, and in a tie with an odd quotient. -/
theorem roundShift_up {m k : ℕ}
    (h : 2 ^ k < 2 * (m % 2 ^ k) ∨ 2 * (m % 2 ^ k) = 2 ^ k ∧ m / 2 ^ k % 2 = 1) :
    roundShift m k = m / 2 ^ k + 1 := if_pos h

theorem roundShift_down {m k : ℕ}
    (h : ¬(2 ^ k < 2 * (m % 2 ^ k) ∨ 2 * (m % 2 ^ k) = 2 ^ k ∧ m / 2 ^ k % 2 = 1)) :
    roundShift m k = m / 2 ^ k := if_neg h

theorem cast_eq_div_add_mod (m k : ℕ) :
    (m : ℚ) = (m / 2 ^ k : ℕ) * 2 ^ k + (m % 2 ^ k : ℕ) := by
  exact_mod_cast (Nat.div_add_mod' m (2 ^ k)).symm

theorem roundShift_nearest (m k : ℕ) : Nearest (2 ^ k) m (roundShift m k) := by
  have hm := cast_eq_div_add_mod m k
  have hr : ((m % 2 ^ k : ℕ) : ℚ) ≤ 2 ^ k := by
    exact_mod_cast (Nat.mod_lt m (Nat.two_pow_pos k)).le
  by_cases hup : 2 ^ k < 2 * (m % 2 ^ k) ∨ 2 * (m % 2 ^ k) = 2 ^ k ∧ m / 2 ^ k % 2 = 1
  · have hhalf : (2 : ℚ) ^ k ≤ 2 * (m % 2 ^ k : ℕ) := by
      exact_mod_cast hup.elim le_of_lt fun h => h.1.ge
    have hdist : |((m / 2 ^ k + 1 : ℕ) : ℚ) * 2 ^ k - m| = 2 ^ k - (m % 2 ^ k : ℕ) := by
      rw [abs_of_nonneg] <;> push_cast <;> linarith
    rw [roundShift_up hup, Nearest, hdist]
    refine ⟨by linarith, fun htie => ?_⟩
    have htie' : 2 * (m % 2 ^ k) = 2 ^ k := by
      have : 2 * ((m % 2 ^ k : ℕ) : ℚ) = 2 ^ k := by linarith
      exact_mod_cast this
    omega
  · have hhalf : 2 * ((m % 2 ^ k : ℕ) : ℚ) ≤ 2 ^ k := by
      exact_mod_cast not_lt.mp fun h => hup (.inl h)
    have hdist : |((m / 2 ^ k : ℕ) : ℚ) * 2 ^ k - m| = (m % 2 ^ k : ℕ) := by
      rw [abs_of_nonpos] <;> linarith [Nat.cast_nonneg (α := ℚ) (m % 2 ^ k)]
    rw [roundShift_down hup, Nearest, hdist]
    refine ⟨hhalf, fun htie => ?_⟩
    have htie' : 2 * (m % 2 ^ k) = 2 ^ k := by exact_mod_cast htie
    omega

/-- An odd `m` rounds as everything less than 1 away from it does: with `k ≥ 2` the multiples of
`2^k` and the midpoints between them are even, so none of them lies as near to `m`. -/
theorem roundShift_nearest_of_odd {m k : ℕ} {t : ℚ} (hodd : m % 2 = 1) (hk : 2 ≤ k)
    (ht : |t - m| < 1) : Nearest (2 ^ k) t (roundShift m k) := by
  obtain ⟨p, hp⟩ : ∃ p, 2 ^ k = 4 * p := pow_dvd_pow 2 hk
  have hm := Nat.div_add_mod m (2 ^ k)
  have hr := Nat.mod_lt m (Nat.two_pow_pos k)
  have hrodd : m % 2 ^ k % 2 = 1 := by
    rw [Nat.mod_mod_of_dvd m (dvd_pow_self 2 (by omega)), hodd]
  have hmq := cast_eq_div_add_mod m k
  obtain ⟨hlo, hhi⟩ := abs_lt.mp ht
  refine .of_lt ?_
  rw [← lt_div_iff₀' two_pos, abs_lt]
  by_cases hup : 2 ^ k < 2 * (m % 2 ^ k)
  · have h1 : (2 : ℚ) ^ k + 2 ≤ 2 * (m % 2 ^ k : ℕ) := by
      exact_mod_cast (by omega : 2 ^ k + 2 ≤ 2 * (m % 2 ^ k))
    have h2 : ((m % 2 ^ k : ℕ) : ℚ) + 1 ≤ 2 ^ k := by
      exact_mod_cast (by omega : m % 2 ^ k + 1 ≤ 2 ^ k)
    rw [roundShift_up (.inl hup)]
    push_cast
    constructor <;> linarith
  · have h1 : 2 * ((m % 2 ^ k : ℕ) : ℚ) + 2 ≤ 2 ^ k := by
      exact_mod_cast (by omega : 2 * (m % 2 ^ k) + 2 ≤ 2 ^ k)
    have h2 : (1 : ℚ) ≤ (m % 2 ^ k : ℕ) := by
      exact_mod_cast (by omega : 1 ≤ m % 2 ^ k)
    rw [roundShift_down (by omega)]
    constructor <;> linarith

/-! ### `rnd` -/

/-- The exponent of the step to which `rnd` rounds. -/
def stepExp (m : ℕ) (e : ℤ) : ℤ := max (e + m.log2 - 23) (-149)

/-- The significand that `rnd` gives, a multiple of that step. -/
def rndSig (m : ℕ) (e : ℤ) : ℕ :=
  if stepExp m e ≤ e then m * 2 ^ (e - stepExp m e).toNat
  else roundShift m (stepExp m e - e).toNat

theorem rnd_zero (neg : Bool) (e : ℤ) : rnd neg 0 e = fPack neg 0 := rfl

theorem rnd_eq_fPack (neg : Bool) {m : ℕ} {e : ℤ} (hm : m ≠ 0)
    (hfin : (stepExp m e + 149).toNat * 0x800000 + rndSig m e < 0x7F800000) :
    rnd neg m e = fPack neg ((stepExp m e + 149).toNat * 0x800000 + rndSig m e) :=
  (if_neg hm).trans (if_pos hfin)

/-- The integer `m` stands for the exact `t`: it is `t`, or it is odd and large, with `t` less than 1
away. Rounding to 24 bits cannot tell the two apart. -/
def StandsFor (m : ℕ) (t : ℚ) : Prop :=
  t = m ∨ m % 2 = 1 ∧ 2 ^ 25 ≤ m ∧ |t - m| < 1

theorem StandsFor.pow_log2_le {m : ℕ} {t : ℚ} (h : StandsFor m t) (hm : m ≠ 0) :
    (2 : ℚ) ^ m.log2 ≤ t := by
  have hle := Nat.log2_self_le hm
  rcases h with rfl | ⟨hodd, hlarge, ht⟩
  · exact_mod_cast hle
  · have heven : 2 ∣ 2 ^ m.log2 :=
      dvd_pow_self 2 (by have := (Nat.le_log2 hm).mpr hlarge; omega)
    have hle' : (2 : ℚ) ^ m.log2 + 1 ≤ m := by
      exact_mod_cast (by omega : 2 ^ m.log2 + 1 ≤ m)
    linarith [(abs_lt.mp ht).1]

theorem StandsFor.lt_pow_log2 {m : ℕ} {t : ℚ} (h : StandsFor m t) :
    t < (2 : ℚ) ^ (m.log2 + 1) := by
  have hlt : m < 2 ^ (m.log2 + 1) := Nat.lt_log2_self
  rcases h with rfl | ⟨-, -, ht⟩
  · exact_mod_cast hlt
  · have hlt' : (m : ℚ) + 1 ≤ 2 ^ (m.log2 + 1) := by exact_mod_cast hlt
    linarith [(abs_lt.mp ht).2]

/-- When the step divides the exact value, nothing is rounded. -/
theorem rndSig_exact {m : ℕ} {e : ℤ} (h : stepExp m e ≤ e) :
    (rndSig m e : ℚ) * 2 ^ stepExp m e = m * 2 ^ e := by
  rw [rndSig, if_pos h, zpow_split e _ h]
  push_cast
  ring

theorem rndSig_nearest {m : ℕ} {e : ℤ} {t : ℚ} (h : StandsFor m t) (hm : m ≠ 0) :
    Nearest (2 ^ stepExp m e) (t * 2 ^ e) (rndSig m e) := by
  have hu : (0 : ℚ) < 2 ^ stepExp m e := by positivity
  have hlog : e + m.log2 - 23 ≤ stepExp m e := le_max_left _ _
  rcases le_or_gt (stepExp m e) e with hle | hlt
  · rcases h with rfl | ⟨-, hlarge, -⟩
    · exact .of_eq hu (rndSig_exact hle)
    · have := (Nat.le_log2 hm).mpr hlarge
      omega
  · rw [rndSig, if_neg hlt.not_ge, zpow_split _ e hlt.le]
    refine Nearest.scale (by positivity) ?_
    rcases h with rfl | ⟨hodd, hlarge, ht⟩
    · exact roundShift_nearest m _
    · have := (Nat.le_log2 hm).mpr hlarge
      exact roundShift_nearest_of_odd hodd (by omega) ht

/-- The exact value is in the binade of the step, unless that is the least step. -/
theorem binade_le {m : ℕ} {e : ℤ} {t : ℚ} (h : StandsFor m t) (hm : m ≠ 0) :
    stepExp m e = -149 ∨ 2 ^ (23 + stepExp m e) ≤ t * 2 ^ e := by
  rcases max_choice (e + m.log2 - 23) (-149) with hq | hq
  · right
    calc (2 : ℚ) ^ (23 + stepExp m e) = 2 ^ m.log2 * 2 ^ e := by
          rw [stepExp, hq, ← zpow_natCast, ← zpow_add₀ two_ne_zero]
          ring_nf
      _ ≤ t * 2 ^ e := mul_le_mul_of_nonneg_right (h.pow_log2_le hm) (by positivity)
  · exact .inl hq

theorem lt_next_binade {m : ℕ} {e : ℤ} {t : ℚ} (h : StandsFor m t) :
    t * 2 ^ e < 2 ^ (24 + stepExp m e) := by
  have hlog : e + m.log2 - 23 ≤ stepExp m e := le_max_left _ _
  calc t * 2 ^ e < 2 ^ (m.log2 + 1) * 2 ^ e :=
        mul_lt_mul_of_pos_right h.lt_pow_log2 (by positivity)
    _ = 2 ^ ((m.log2 + 1 : ℕ) + e) := by rw [zpow_add₀ two_ne_zero, zpow_natCast]
    _ ≤ 2 ^ (24 + stepExp m e) := zpow_le_zpow_right₀ one_le_two (by push_cast; omega)

theorem rndSig_le {m : ℕ} {e : ℤ} {t : ℚ} (h : StandsFor m t) (hm : m ≠ 0) :
    rndSig m e ≤ 0x1000000 := by
  refine (rndSig_nearest h hm).le_of_ge (b := 2 ^ 24) (by positivity) ?_
  rw [natCast_mul_zpow]
  exact (lt_next_binade h).le

theorem le_rndSig {m : ℕ} {e : ℤ} {t : ℚ} (h : StandsFor m t) (hm : m ≠ 0) :
    stepExp m e = -149 ∨ 0x800000 ≤ rndSig m e := by
  refine (binade_le h hm).imp_right fun hle => ?_
  refine (rndSig_nearest h hm).le_of_le (a := 2 ^ 23) (by positivity) ?_
  rwa [natCast_mul_zpow]

/-- Below the point that rounds past the largest finite binary32, the pattern of `rnd` is finite. -/
theorem rnd_mag_lt {m : ℕ} {e : ℤ} {t : ℚ} (h : StandsFor m t) (hm : m ≠ 0)
    (hlt : t * 2 ^ e < 2 ^ 128 - 2 ^ 103) :
    (stepExp m e + 149).toNat * 0x800000 + rndSig m e < 0x7F800000 := by
  have hsig := rndSig_le h hm (e := e)
  have hnear := rndSig_nearest h hm (e := e)
  rcases lt_trichotomy (stepExp m e) 104 with hq | hq | hq
  · omega
  · have hne : rndSig m e ≠ 0x1000000 := by
      intro hn
      rw [hq, hn] at hnear
      have hx := (abs_le.mp hnear.dist_le).2
      norm_num at hx hlt
      linarith
    omega
  · have hhuge : (2 : ℚ) ^ (128 : ℤ) ≤ t * 2 ^ e :=
      (zpow_le_zpow_right₀ one_le_two (by omega)).trans ((binade_le h hm).resolve_left (by omega))
    norm_num at hhuge hlt
    linarith

theorem fVal_rnd (neg : Bool) {m : ℕ} {e : ℤ} {t : ℚ} (h : StandsFor m t) (hm : m ≠ 0)
    (hlt : t * 2 ^ e < 2 ^ 128 - 2 ^ 103) :
    fVal (rnd neg m e) = some (sgn neg * (rndSig m e * 2 ^ stepExp m e)) := by
  have hq : -149 ≤ stepExp m e := le_max_right _ _
  have hfin := rnd_mag_lt h hm hlt
  have hlow := le_rndSig h hm (e := e)
  rw [rnd_eq_fPack neg hm hfin, fVal_fPack neg hfin (hlow.imp_left (by omega)) (rndSig_le h hm),
    Int.toNat_of_nonneg (by omega), add_sub_cancel_right]

theorem fVal_fPack_zero (neg : Bool) : fVal (fPack neg 0) = some 0 := by
  simp [fVal_of_fView (fView_fPack_subnormal neg (f := 0) (by norm_num))]

theorem isRnd_zero (neg : Bool) : IsRnd 0 (fPack neg 0) := by
  have hnear : Nearest (2 ^ (-149 : ℤ)) 0 0 := .of_eq (by positivity) (by simp)
  simpa using isRnd_of_nearest (neg := neg) (by simpa using fVal_fPack_zero neg)
    (fun _ => fPack_even neg (by norm_num) rfl) hnear (.inl rfl)

/-- `rnd` of an integer that stands for `t` is the exact `t * 2^e`, rounded once. -/
theorem isRnd_rnd (neg : Bool) {m : ℕ} {e : ℤ} {t : ℚ} (h : StandsFor m t)
    (hlt : |sgn neg * (t * 2 ^ e)| < 2 ^ 128 - 2 ^ 103) :
    IsRnd (sgn neg * (t * 2 ^ e)) (rnd neg m e) := by
  rcases eq_or_ne m 0 with rfl | hm
  · obtain rfl : t = 0 := by simpa [StandsFor] using h
    simpa [rnd_zero] using isRnd_zero neg
  have hlt' : t * 2 ^ e < 2 ^ 128 - 2 ^ 103 :=
    (le_abs_self _).trans_lt (abs_sgn_mul neg _ ▸ hlt)
  have hfin := rnd_mag_lt h hm hlt'
  refine isRnd_of_nearest (fVal_rnd neg h hm hlt') (fun heven => ?_) (rndSig_nearest h hm)
    (binade_le h hm)
  rw [rnd_eq_fPack neg hm hfin]
  exact fPack_even neg (by omega) (by omega)

/-- A value that its step divides is its own rounding. -/
theorem fVal_rnd_exact (neg : Bool) {m : ℕ} {e : ℤ} (h : stepExp m e ≤ e)
    (hlt : (m : ℚ) * 2 ^ e < 2 ^ 128 - 2 ^ 103) :
    fVal (rnd neg m e) = some (sgn neg * (m * 2 ^ e)) := by
  rcases eq_or_ne m 0 with rfl | hm
  · simpa [rnd_zero] using fVal_fPack_zero neg
  · rw [fVal_rnd neg (.inl rfl) hm hlt, rndSig_exact h]

/-! ### The operands of the operations -/

/-- The quotient bits of `rndQuot`: the quotient to 65 bits below the unit, the last one sticky. -/
def quotBits (num den : ℕ) : ℕ :=
  2 * (num * 2 ^ 64 / den) + if num * 2 ^ 64 % den = 0 then 0 else 1

theorem rndQuot_eq_rnd (neg : Bool) (num den : ℕ) (e : ℤ) :
    rndQuot neg num den e = rnd neg (quotBits num den) (e - 65) := rfl

/-- A remainder makes the quotient odd and keeps it within 1 of the exact one; a quotient of 24-bit
significands has enough bits for that. -/
theorem quotBits_standsFor {num den : ℕ} (hden : 0 < den) (hsmall : den < 2 ^ 24) :
    StandsFor (quotBits num den) (num / den * 2 ^ 65) := by
  have hd : (0 : ℚ) < den := by exact_mod_cast hden
  have hmul : (num : ℚ) * 2 ^ 64 = den * (num * 2 ^ 64 / den : ℕ) + (num * 2 ^ 64 % den : ℕ) := by
    exact_mod_cast (Nat.div_add_mod (num * 2 ^ 64) den).symm
  have hquot : (num / den * 2 ^ 65 : ℚ) =
      2 * (num * 2 ^ 64 / den : ℕ) + 2 * ((num * 2 ^ 64 % den : ℕ) / den) := by
    have hsplit : (num / den * 2 ^ 65 : ℚ) = 2 * (num * 2 ^ 64) / den := by ring
    rw [hsplit, hmul]
    field_simp
  rw [hquot]
  rcases eq_or_ne (num * 2 ^ 64 % den) 0 with hr | hr
  · left
    rw [quotBits, if_pos hr, hr]
    simp
  · right
    have hbits : quotBits num den = 2 * (num * 2 ^ 64 / den) + 1 := by rw [quotBits, if_neg hr]
    have hnum : 1 ≤ num := Nat.one_le_iff_ne_zero.mpr fun h0 => hr (by simp [h0])
    have hlarge : 2 ^ 40 ≤ num * 2 ^ 64 / den :=
      (Nat.le_div_iff_mul_le hden).mpr (by omega)
    have hpos : (0 : ℚ) < (num * 2 ^ 64 % den : ℕ) / den :=
      div_pos (by exact_mod_cast Nat.pos_of_ne_zero hr) hd
    have hone : ((num * 2 ^ 64 % den : ℕ) / den : ℚ) < 1 :=
      (div_lt_one hd).mpr (by exact_mod_cast Nat.mod_lt _ hden)
    refine ⟨by omega, by omega, ?_⟩
    rw [hbits, abs_lt]
    push_cast at hpos hone ⊢
    constructor <;> linarith

theorem fAlign_value (s : Bool) (m : ℕ) {e g : ℤ} (h : g ≤ e) :
    (fAlign s m e g : ℚ) * 2 ^ g = sgn s * (m * 2 ^ e) := by
  rw [zpow_split e g h]
  cases s <;> simp [fAlign, sgn, mul_assoc]

theorem fmul_fin {a b : F32} {s t : Bool} {m n : ℕ} {e f : ℤ} (ha : fView a = .fin s m e)
    (hb : fView b = .fin t n f) : fmul a b = rnd (s ^^ t) (m * n) (e + f) := by
  simp only [fmul, ha, hb]

theorem fdiv_fin {a b : F32} {s t : Bool} {m n : ℕ} {e f : ℤ} (ha : fView a = .fin s m e)
    (hb : fView b = .fin t n f) (hn : n ≠ 0) : fdiv a b = rndQuot (s ^^ t) m n (e - f) := by
  simp only [fdiv, ha, hb, if_neg hn]

/-- Two finite operands as one integer multiple of the step of the smaller exponent. -/
def fSum (s t : Bool) (m n : ℕ) (e f : ℤ) : ℤ :=
  fAlign s m e (min e f) + fAlign t n f (min e f)

theorem fSum_value (s t : Bool) (m n : ℕ) (e f : ℤ) :
    (fSum s t m n e f : ℚ) * 2 ^ min e f = sgn s * (m * 2 ^ e) + sgn t * (n * 2 ^ f) := by
  rw [fSum, Int.cast_add, add_mul, fAlign_value s m (min_le_left e f),
    fAlign_value t n (min_le_right e f)]

theorem fadd_fin {a b : F32} {s t : Bool} {m n : ℕ} {e f : ℤ} (ha : fView a = .fin s m e)
    (hb : fView b = .fin t n f) :
    fadd a b = if fSum s t m n e f = 0 then fPack (s && t) 0
      else rnd (decide (fSum s t m n e f < 0)) (fSum s t m n e f).natAbs (min e f) := by
  simp only [fadd, ha, hb]
  rfl

/-! ### Samples and the operations -/

/-- Settles O15: a sample has at most 16 bits, so the step of `rnd` divides it. -/
theorem floatOfSampleIsExact : Obligations.FloatOfSampleIsExact := by
  intro r
  have hle : r.toInt.natAbs ≤ 2 ^ 15 := by
    have := BitVec.le_two_mul_toInt (x := r)
    have := BitVec.two_mul_toInt_lt (x := r)
    omega
  have hlog : r.toInt.natAbs.log2 < 16 := by
    rcases eq_or_ne r.toInt.natAbs 0 with h0 | h0
    · simp [h0]
    · exact (Nat.log2_lt h0).mpr (by omega)
  have hstep : stepExp r.toInt.natAbs 0 ≤ 0 := max_le (by omega) (by omega)
  have hsmall : ((r.toInt.natAbs : ℕ) : ℚ) * 2 ^ (0 : ℤ) < 2 ^ 128 - 2 ^ 103 := by
    have : ((r.toInt.natAbs : ℕ) : ℚ) ≤ 2 ^ 15 := by exact_mod_cast hle
    norm_num at this ⊢
    linarith
  rw [float, fVal_rnd_exact _ hstep hsmall, zpow_zero, mul_one, sgn_mul_natAbs]

/-- Settles O16: the product of the significands is exact, and `rnd` rounds it once. -/
theorem fmulRoundsOnceToNearestEven : Obligations.FmulRoundsOnceToNearestEven := by
  intro a b x y hx hy hlt
  obtain ⟨s, m, e, ha, rfl⟩ := fView_of_fVal hx
  obtain ⟨t, n, f, hb, rfl⟩ := fView_of_fVal hy
  have hexact : sgn s * (m * 2 ^ e) * (sgn t * (n * 2 ^ f)) =
      sgn (s ^^ t) * ((m * n : ℕ) * 2 ^ (e + f)) := by
    rw [sgn_xor, zpow_add₀ two_ne_zero]
    push_cast
    ring
  rw [fmul_fin ha hb]
  rw [hexact] at hlt ⊢
  exact isRnd_rnd _ (.inl rfl) hlt

/-- Settles O17: the quotient bits with their sticky bit stand for the exact quotient. -/
theorem fdivRoundsOnceToNearestEven : Obligations.FdivRoundsOnceToNearestEven := by
  intro a b x y hx hy hy0 hlt
  obtain ⟨s, m, e, ha, rfl⟩ := fView_of_fVal hx
  obtain ⟨t, n, f, hb, rfl⟩ := fView_of_fVal hy
  have hn : n ≠ 0 := by
    rintro rfl
    simp at hy0
  have hexact : sgn s * (m * 2 ^ e) / (sgn t * (n * 2 ^ f)) =
      sgn (s ^^ t) * (m / n * 2 ^ 65 * 2 ^ (e - f - 65)) := by
    rw [sgn_xor, ← sgn_div, zpow_sub₀ two_ne_zero, zpow_sub₀ two_ne_zero,
      show (2 : ℚ) ^ (65 : ℤ) = 2 ^ 65 from zpow_natCast 2 65]
    field_simp
  rw [fdiv_fin ha hb hn, rndQuot_eq_rnd]
  rw [hexact] at hlt ⊢
  exact isRnd_rnd _ (quotBits_standsFor (Nat.pos_of_ne_zero hn) (fView_bounds hb).1) hlt

/-- Settles O18: the aligned operands add exactly, and `rnd` rounds their sum once. -/
theorem faddRoundsOnceToNearestEven : Obligations.FaddRoundsOnceToNearestEven := by
  intro a b x y hx hy hlt
  obtain ⟨s, m, e, ha, rfl⟩ := fView_of_fVal hx
  obtain ⟨t, n, f, hb, rfl⟩ := fView_of_fVal hy
  rw [fadd_fin ha hb]
  rw [← fSum_value] at hlt ⊢
  rcases eq_or_ne (fSum s t m n e f) 0 with h0 | h0
  · rw [if_pos h0, h0, Int.cast_zero, zero_mul]
    exact isRnd_zero _
  · rw [if_neg h0]
    rw [← sgn_mul_natAbs, mul_assoc] at hlt ⊢
    exact isRnd_rnd _ (.inl rfl) hlt

/-! ### The default sensitivities -/

/-- A positive finite pattern less than half a step away from a value of its binade is that value,
rounded. -/
theorem value_and_isRnd {r : F32} {v x : ℚ} (n : ℕ) (q : ℤ) (hview : fView r = .fin false n q)
    (hnear : n * 2 ^ q = v ∧ 2 ^ (23 + q) ≤ x ∧ 2 * |v - x| < 2 ^ q) :
    fVal r = some v ∧ IsRnd x r := by
  obtain ⟨rfl, hbinade, hdist⟩ := hnear
  have hv := fVal_of_fView hview
  have hrnd := isRnd_of_nearest hv (even_of_fView hview) (.of_lt hdist) (.inr hbinade)
  simpa [sgn] using And.intro hv hrnd

/-- Settles O19, entry by entry: the significand and exponent of the pattern, and the decimal within
half a step of it. -/
theorem sensitivitiesAreRoundedDecimals : Obligations.SensitivitiesAreRoundedDecimals :=
  ⟨value_and_isRnd 16767552 (-38) (by decide) (by norm_num),
    value_and_isRnd 16767552 (-37) (by decide) (by norm_num),
    value_and_isRnd 16767552 (-36) (by decide) (by norm_num),
    value_and_isRnd 12575664 (-34) (by decide) (by norm_num),
    value_and_isRnd 9395241 (-30) (by decide) (by norm_num),
    value_and_isRnd 9395241 (-29) (by decide) (by norm_num),
    value_and_isRnd 9395241 (-27) (by decide) (by norm_num),
    value_and_isRnd 9620727 (-36) (by decide) (by norm_num),
    value_and_isRnd 9964324 (-35) (by decide) (by norm_num),
    value_and_isRnd 14774687 (-35) (by decide) (by norm_num),
    value_and_isRnd 9964324 (-34) (by decide) (by norm_num)⟩

end Sys2Proof.Rounding

/-!
PROOF. The state after construction (10_state.md R35) and its invariant.
-/

namespace Sys2Proof.Construction

open Sys2Proof.Machine

theorem construct_cs (c : Cfg) (d : Dev) : (State.construct c).cs d = .high := by
  cases d <;> rfl

theorem construct_life (c : Cfg) (k : Sensor) : (State.construct c).life k = .unconfigured := by
  cases k <;> rfl

theorem construct_settings (c : Cfg) (k : Sensor) : (State.construct c).settings k = none := by
  cases k <;> rfl

/-- Construction meets R28 (nothing configured, nothing stored) and R25. -/
theorem construct_inv (c : Cfg) : (State.construct c).Inv :=
  have hidle : (State.construct c).CsIdle := ⟨rfl, rfl⟩
  ⟨fun k => iff_of_true (construct_life c k) (construct_settings c k), fun _ => hidle, fun _ => hidle⟩

theorem defaultCfg_wf (k : BusKind) : (defaultCfg k).wf = true := by
  cases k <;> decide

/-- Settles O48: the reset values of R35, and the invariant from them. -/
theorem constructionState : Obligations.ConstructionState :=
  ⟨fun c => ⟨rfl, construct_cs c, construct_life c, construct_settings c, rfl, rfl, construct_inv c⟩,
    rfl, defaultCfg_wf⟩

end Sys2Proof.Construction

/-!
PROOF. What an instruction and a step leave unchanged, what they add to the history, and the invariant
(10_state.md R22 to R34, 40_transport.md R111).

`exec_ends` says how an instruction ends. Here its cases are regrouped by what the state is made of:
the bus operations first (`BusRun`), then the write of the success, then the reply (`Ran`). Each field
then takes one short case analysis, and the statements are put together from the fields.
-/

namespace Sys2Proof.Running

open Sys2Proof.Machine

/-! ### The reply -/

/-- The state with `r` in the model's reply field. -/
def replying (s : State) (r : Option Reply) : State := { s with reply := r }

@[simp] theorem replying_reply (s : State) (r : Option Reply) : (replying s r).reply = r := rfl

@[simp] theorem replying_cfg (s : State) (r : Option Reply) : (replying s r).cfg = s.cfg := rfl

@[simp] theorem replying_hist (s : State) (r : Option Reply) : (replying s r).hist = s.hist := rfl

@[simp] theorem replying_refused (s : State) (r : Option Reply) :
    (replying s r).refused = s.refused := rfl

@[simp] theorem replying_inbox (s : State) (r : Option Reply) : (replying s r).inbox = s.inbox := rfl

@[simp] theorem replying_waiting (s : State) (r : Option Reply) :
    (replying s r).waiting = s.waiting := rfl

@[simp] theorem replying_cs (s : State) (r : Option Reply) (d : Dev) :
    (replying s r).cs d = s.cs d := rfl

@[simp] theorem replying_life (s : State) (r : Option Reply) (k : Sensor) :
    (replying s r).life k = s.life k := rfl

@[simp] theorem replying_settings (s : State) (r : Option Reply) (k : Sensor) :
    (replying s r).settings k = s.settings k := rfl

@[simp] theorem refuse_cs (s : State) (q : RefuseReason) (d : Dev) : (s.refuse q).cs d = s.cs d :=
  rfl

@[simp] theorem refuse_life (s : State) (q : RefuseReason) (k : Sensor) :
    (s.refuse q).life k = s.life k := rfl

@[simp] theorem refuse_settings (s : State) (q : RefuseReason) (k : Sensor) :
    (s.refuse q).settings k = s.settings k := rfl

@[simp] theorem take_cs (s : State) (rest : List Request) (d : Dev) :
    (s.take rest).cs d = s.cs d := rfl

@[simp] theorem take_life (s : State) (rest : List Request) (k : Sensor) :
    (s.take rest).life k = s.life k := rfl

@[simp] theorem take_settings (s : State) (rest : List Request) (k : Sensor) :
    (s.take rest).settings k = s.settings k := rfl

/-! ### Whole operations -/

theorem csIdle_iff {s : State} : s.CsIdle ↔ ∀ d, s.cs d = .high :=
  ⟨fun ⟨hag, hm⟩ d => by cases d <;> assumption, fun h => ⟨h .ag, h .m⟩⟩

/-- The state after whole transport operations on device `d` that added the events `ops`. With no
operation at all the state is the old one, with its chip-select as it was. -/
inductive AfterOps (d : Dev) (s : State) : List (List BusEvent) → State → Prop
  | none : AfterOps d s [] s
  | some (n : Nat) (ops : List (List BusEvent)) (ho : ∀ o ∈ ops, WholeOp s.cfg o) :
    AfterOps d s ops (s.busDone d n ops.flatten)

namespace AfterOps

variable {d : Dev} {s u : State} {ops : List (List BusEvent)}

theorem frame (h : AfterOps d s ops u) : BusFrame d s u := by
  cases h with
  | none => exact .refl d s
  | some => exact .busDone ..

theorem waiting (h : AfterOps d s ops u) : u.waiting = s.waiting := by
  cases h with
  | none => rfl
  | some => exact busDone_waiting ..

theorem hist (h : AfterOps d s ops u) : u.hist = s.hist ++ ops.flatten := by
  cases h with
  | none => simp
  | some => exact busDone_hist ..

theorem whole (h : AfterOps d s ops u) : ∀ o ∈ ops, WholeOp s.cfg o := by
  cases h with
  | none => simp
  | some _ _ ho => exact ho

/-- A whole operation leaves its chip-select high on the serial bus and untouched on the other. -/
theorem csIdle (h : AfterOps d s ops u) (hs : s.CsIdle) : u.CsIdle := by
  cases h with
  | none => exact hs
  | some n ops _ =>
    obtain ⟨hag, hm⟩ := hs
    cases hk : s.cfg.kind <;> cases d <;> simp [State.CsIdle, State.busDone, hk, hag, hm]

end AfterOps

/-! ### An operation with no answer -/

theorem writeHung_serial {s : State} (hk : s.cfg.kind = .serial) (d : Dev) (reg : Byte)
    (data : List Byte) :
    s.writeHung d reg data = (csSet d .low s).hungOn (.xfer (spiWriteOut d reg data)) := by
  simp [State.writeHung, hk]

theorem writeHung_addressed {s : State} (hk : s.cfg.kind = .addressed) (d : Dev) (reg : Byte)
    (data : List Byte) : s.writeHung d reg data = s.hungOn (.iwr s.cfg.agAddr (reg :: data)) := by
  simp [State.writeHung, hk]

theorem readHung_serial {s : State} (hk : s.cfg.kind = .serial) (d : Dev) (reg : Byte) (n : Nat) :
    s.readHung d reg n = (csSet d .low s).hungOn (.xfer (spiReadOut d reg n)) := by
  simp [State.readHung, hk]

theorem readHung_addressed {s : State} (hk : s.cfg.kind = .addressed) (d : Dev) (reg : Byte)
    (n : Nat) : s.readHung d reg n = s.hungOn (.iwrrd s.cfg.agAddr [reg] n) := by
  simp [State.readHung, hk]

/-- `u` is `s` with one operation on device `d` begun, whose transfer has no answer (R37, R367). -/
structure Hangs (d : Dev) (s u : State) : Prop where
  frame : BusFrame d s u
  opens : ∃ call last, u.waiting = some call ∧ u.hist = s.hist ++ last ∧ OpenOp s.cfg call last
  csAddressed : s.cfg.kind = .addressed → s.CsIdle → u.CsIdle

theorem writeHung_hangs (s : State) (d : Dev) (reg : Byte) (data : List Byte) :
    Hangs d s (s.writeHung d reg data) where
  frame := .writeHung ..
  opens := by
    cases hk : s.cfg.kind with
    | serial =>
      rw [writeHung_serial hk]
      exact ⟨_, _, rfl, csSet_hist .., .inl ⟨hk, d, _, rfl, rfl⟩⟩
    | addressed =>
      rw [writeHung_addressed hk]
      exact ⟨_, [], rfl, by simp, .inr ⟨hk, rfl, _, .inl rfl⟩⟩
  csAddressed hk hs := by rw [writeHung_addressed hk]; exact hs

theorem readHung_hangs (s : State) (d : Dev) (reg : Byte) (n : Nat) :
    Hangs d s (s.readHung d reg n) where
  frame := .readHung ..
  opens := by
    cases hk : s.cfg.kind with
    | serial =>
      rw [readHung_serial hk]
      exact ⟨_, _, rfl, csSet_hist .., .inl ⟨hk, d, _, rfl, rfl⟩⟩
    | addressed =>
      rw [readHung_addressed hk]
      exact ⟨_, [], rfl, by simp, .inr ⟨hk, rfl, _, .inr ⟨n, rfl⟩⟩⟩
  csAddressed hk hs := by rw [readHung_addressed hk]; exact hs

/-! ### The bus part of an instruction -/

/-- What an instruction has done on device `d`: whole operations, and perhaps one more with no answer. -/
inductive BusRun (d : Dev) (s u : State) : Prop
  | whole (ops : List (List BusEvent)) (h : AfterOps d s ops u)
  | hung (ops : List (List BusEvent)) (s' : State) (h : AfterOps d s ops s') (hu : Hangs d s' u)

/-- No event is the traffic of a block that does not hang. -/
theorem traffic_none {s t : State} (hh : t.hist = s.hist) (hw : t.waiting = none) :
    ∃ es, t.hist = s.hist ++ es ∧ Traffic s.cfg t.waiting es :=
  ⟨[], by simp [hh], [], [], rfl, by simp, by rw [hw]⟩

namespace BusRun

variable {d : Dev} {s u : State}

theorem frame (h : BusRun d s u) : BusFrame d s u := by
  cases h with
  | whole _ h => exact h.frame
  | hung _ _ h hu => exact h.frame.trans hu.frame

theorem csIdle (h : BusRun d s u) (hs : s.CsIdle)
    (hw : u.waiting = none ∨ s.cfg.kind = .addressed) : u.CsIdle := by
  cases h with
  | whole _ h => exact h.csIdle hs
  | hung _ s' h hu =>
    obtain ⟨call, -, hwait, -⟩ := hu.opens
    obtain hnone | hk := hw
    · simp [hwait] at hnone
    · exact hu.csAddressed (h.frame.cfg ▸ hk) (h.csIdle hs)

theorem traffic (h : BusRun d s u) (hs : s.waiting = none) :
    ∃ es, u.hist = s.hist ++ es ∧ Traffic s.cfg u.waiting es := by
  cases h with
  | whole ops h => exact ⟨_, h.hist, ops, [], by simp, h.whole, by rw [h.waiting, hs]⟩
  | hung ops s' h hu =>
    obtain ⟨call, last, hwait, hhist, hopen⟩ := hu.opens
    refine ⟨ops.flatten ++ last, by rw [hhist, h.hist, List.append_assoc], ops, last, rfl, h.whole, ?_⟩
    rw [hwait]
    exact h.frame.cfg ▸ hopen

end BusRun

/-! ### An instruction -/

/-- How an instruction ends, by the parts of the state: a refusal; or the bus part and a reply; or the
bus part, what the success writes, and its value as the reply. -/
inductive Ran (d : Dev) (i : Instr) (s t : State) : Prop
  | refused (q : RefuseReason) (ht : t = s.refuse q)
  | returned (u : State) (r : Option Reply) (hu : BusRun d s u)
    (hw : u.waiting = s.waiting ∨ r = none) (hr : ∀ q, r ≠ some (.refused q)) (ht : t = replying u r)
  | succeeded (u : State) (v : Value) (hu : BusRun d s u) (hw : u.waiting = s.waiting)
    (hv : ∀ k, writesLife i = some k → v = .unit)
    (hen : ∀ k, i = enInstr k → s.life k ≠ .unconfigured)
    (ht : t = replying (landed i s u) (some (.ok v)))

/-- Every instruction that answers a next state ends in one of these ways, on the device it uses. -/
theorem exec_ran {d : Dev} {i : Instr} {s t : State} (hd : ∀ d', devUsed i = some d' → d' = d)
    (h : exec i s = .next t) : Ran d i s t := by
  have unused : BusRun d s s := .whole [] .none
  cases exec_ends h with
  | pure _ v ht => exact .returned s (some (.ok v)) unused (.inl rfl) (by simp) ht
  | refused q ht => exact .refused q ht
  | sequence _ cmd req _ ht => exact .returned s _ unused (.inl rfl) (by simp) ht
  | bus d' hd' _ hen n ops ho he =>
    obtain rfl := hd d' hd'
    have done := AfterOps.some (d := d') n ops ho
    obtain ⟨v, hv, ht⟩ | ⟨op, reg, ht⟩ | ⟨s', hs', ht⟩ := he
    · exact .succeeded _ v (.whole ops done) done.waiting hv hen ht
    · exact .returned _ _ (.whole ops done) (.inl done.waiting) (by simp) ht
    · have hafter : AfterOps d' s ops s' := by
        obtain ⟨rfl, rfl⟩ | rfl := hs'
        · exact .none
        · exact done
      obtain ⟨reg, data, ht⟩ | ⟨reg, m, ht⟩ := ht
      · exact .returned _ none (.hung ops s' hafter (writeHung_hangs ..)) (.inr rfl) (by simp) ht
      · exact .returned _ none (.hung ops s' hafter (readHung_hangs ..)) (.inr rfl) (by simp) ht

/-- A device that an instruction stays on; any device, where it uses none. -/
theorem exists_device (i : Instr) : ∃ d, ∀ d', devUsed i = some d' → d' = d := by
  cases h : devUsed i with
  | none => exact ⟨.ag, by simp⟩
  | some d => exact ⟨d, fun d' h' => (Option.some.inj h').symm⟩

theorem device_unique {i : Instr} {d : Dev} (h : devUsed i = some d) :
    ∀ d', devUsed i = some d' → d' = d :=
  fun _ h' => Option.some.inj (h'.symm.trans h)

theorem writesLife_cfgInstr (r : Settings) : writesLife (cfgInstr r) = some (sensorOf r) := by
  cases r <;> rfl

theorem writesLife_enInstr (k : Sensor) : writesLife (enInstr k) = some k := by
  cases k <;> rfl

/-- An instruction that does not write the lifecycle of `k` stores no record for `k`. -/
theorem sensorOf_ne {i : Instr} {k : Sensor} (h : writesLife i ≠ some k) (r : Settings)
    (hr : i = cfgInstr r) : k ≠ sensorOf r := by
  rintro rfl
  exact h (hr ▸ writesLife_cfgInstr r)

namespace Ran

variable {d : Dev} {i : Instr} {s t : State}

theorem cfg (h : Ran d i s t) : t.cfg = s.cfg := by
  obtain ⟨q, rfl⟩ | ⟨u, r, hu, -, -, rfl⟩ | ⟨u, v, hu, -, -, -, rfl⟩ := h
  · simp
  · simpa using hu.frame.cfg
  · simpa using hu.frame.cfg

theorem inbox (h : Ran d i s t) : t.inbox = s.inbox := by
  obtain ⟨q, rfl⟩ | ⟨u, r, hu, -, -, rfl⟩ | ⟨u, v, hu, -, -, -, rfl⟩ := h
  · simp
  · simpa using hu.frame.inbox
  · simpa using hu.frame.inbox

theorem hist (h : Ran d i s t) : s.hist <+: t.hist := by
  obtain ⟨q, rfl⟩ | ⟨u, r, hu, -, -, rfl⟩ | ⟨u, v, hu, -, -, -, rfl⟩ := h
  · simp
  · simpa using hu.frame.hist
  · simpa using hu.frame.hist

theorem csOther (h : Ran d i s t) {d' : Dev} (hd : d' ≠ d) : t.cs d' = s.cs d' := by
  obtain ⟨q, rfl⟩ | ⟨u, r, hu, -, -, rfl⟩ | ⟨u, v, hu, -, -, -, rfl⟩ := h
  · simp
  · simpa using hu.frame.csOther d' hd
  · simpa using hu.frame.csOther d' hd

theorem waiting (h : Ran d i s t) : t.waiting = s.waiting ∨ t.reply = none := by
  obtain ⟨q, rfl⟩ | ⟨u, r, -, hw, -, rfl⟩ | ⟨u, v, -, hw, -, -, rfl⟩ := h
  · simp
  · simpa using hw
  · simp [hw]

/-- A refusal is told by the reply, and it is the only way to set the mark. -/
theorem refuse_or_keepsMark (h : Ran d i s t) :
    (∃ q, t.reply = some (.refused q) ∧ t = s.refuse q) ∨
      t.refused = s.refused ∧ ∀ q, t.reply ≠ some (.refused q) := by
  obtain ⟨q, rfl⟩ | ⟨u, r, hu, -, hr, rfl⟩ | ⟨u, v, hu, -, -, -, rfl⟩ := h
  · exact .inl ⟨q, rfl, rfl⟩
  · exact .inr ⟨by simpa using hu.frame.refused, hr⟩
  · exact .inr ⟨by simpa using hu.frame.refused, by simp⟩

theorem refusedMark (h : Ran d i s t) :
    t.refused = s.refused ∨ (∃ q, t.reply = some (.refused q)) ∧ t.hist = s.hist := by
  obtain ⟨q, hq, rfl⟩ | ⟨hkept, -⟩ := h.refuse_or_keepsMark
  · exact .inr ⟨⟨q, hq⟩, refuse_hist ..⟩
  · exact .inl hkept

theorem life_other (h : Ran d i s t) {k : Sensor} (hk : writesLife i ≠ some k) :
    t.life k = s.life k := by
  obtain ⟨q, rfl⟩ | ⟨u, r, hu, -, -, rfl⟩ | ⟨u, v, hu, -, -, -, rfl⟩ := h
  · simp
  · simpa using hu.frame.life k
  · simpa [landed_life_other hk] using hu.frame.life k

/-- Only `CFG.s` stores a record. -/
theorem settings_other (h : Ran d i s t) {k : Sensor} (hk : ∀ r, i = cfgInstr r → k ≠ sensorOf r) :
    t.settings k = s.settings k := by
  obtain ⟨q, rfl⟩ | ⟨u, r, hu, -, -, rfl⟩ | ⟨u, v, hu, -, -, -, rfl⟩ := h
  · simp
  · simpa using hu.frame.settings k
  · by_cases hi : writesLife i = some k
    · obtain ⟨r, hr, rfl⟩ | rfl := writesLife_some hi
      · exact absurd rfl (hk r hr)
      · simpa [landed_enInstr] using hu.frame.settings k
    · simpa [landed_settings_other hi] using hu.frame.settings k

/-- How a lifecycle changes (R260). -/
theorem life_change (h : Ran d i s t) {k : Sensor} (hk : t.life k ≠ s.life k) :
    t.reply = some (.ok .unit) ∧
    ((∃ r, i = cfgInstr r ∧ sensorOf r = k ∧ s.life k = .unconfigured ∧ t.life k = .configured) ∨
     (i = enInstr k ∧ s.life k = .configured ∧ t.life k = .enabled)) := by
  have hi : writesLife i = some k := not_not.1 fun hi => hk (h.life_other hi)
  obtain ⟨q, rfl⟩ | ⟨u, r, hu, -, -, rfl⟩ | ⟨u, v, hu, -, hv, hen, rfl⟩ := h
  · simp at hk
  · exact absurd (hu.frame.life k) hk
  refine ⟨by simp [hv k hi], ?_⟩
  obtain ⟨r, rfl, rfl⟩ | rfl := writesLife_some hi
  · refine .inl ⟨r, rfl, rfl, ?_⟩
    cases hl : s.life (sensorOf r) <;> simp_all [landed_cfgInstr]
  · refine .inr ⟨rfl, ?_⟩
    have hne := hen k rfl
    cases hl : s.life k <;> simp_all [landed_enInstr]

/-- R28 is kept: `CFG.s` stores a record together with the lifecycle, and `EN.s` only runs where there
is a record already. -/
theorem slotsAgree (h : Ran d i s t) (hs : s.SlotsAgree) : t.SlotsAgree := by
  intro k
  by_cases hi : writesLife i = some k
  swap
  · rw [h.life_other hi, h.settings_other (sensorOf_ne hi)]
    exact hs k
  obtain ⟨q, rfl⟩ | ⟨u, r, hu, -, -, rfl⟩ | ⟨u, v, hu, -, -, hen, rfl⟩ := h
  · exact hs k
  · simpa [hu.frame.life, hu.frame.settings] using hs k
  obtain ⟨r, rfl, rfl⟩ | rfl := writesLife_some hi
  · have hlife : (if s.life (sensorOf r) = .enabled then DriverState.enabled else .configured) ≠
        .unconfigured := by split <;> simp
    simpa [landed_cfgInstr] using hlife
  · have hstored := (hs k).not.1 (hen k rfl)
    simpa [landed_enInstr, hu.frame.settings] using hstored

theorem csIdle (h : Ran d i s t) (hs : s.CsIdle)
    (hw : t.waiting = none ∨ s.cfg.kind = .addressed) : t.CsIdle := by
  obtain ⟨q, rfl⟩ | ⟨u, r, hu, -, -, rfl⟩ | ⟨u, v, hu, -, -, -, rfl⟩ := h
  · exact hs
  · exact hu.csIdle hs hw
  · simpa [csIdle_iff] using csIdle_iff.1 (hu.csIdle hs (by simpa using hw))

theorem traffic (h : Ran d i s t) (hs : s.waiting = none) :
    ∃ es, t.hist = s.hist ++ es ∧ Traffic s.cfg t.waiting es := by
  obtain ⟨q, rfl⟩ | ⟨u, r, hu, -, -, rfl⟩ | ⟨u, v, hu, -, -, -, rfl⟩ := h
  · exact traffic_none (by simp) (by simp [hs])
  · exact hu.traffic hs
  · simpa using hu.traffic hs

end Ran

/-! ### The frames of the commands -/

/-- Settles O44: a transport command, a wire-frame row and a read write no lifecycle and no record. -/
theorem transportAndReadFrame : Obligations.TransportAndReadFrame := by
  intro i s t d hd hi h
  have hran := exec_ran (device_unique hd) h
  have hk : ∀ k, writesLife i ≠ some k := by simp [hi]
  exact ⟨hran.cfg, fun k => hran.life_other (hk k), fun k => hran.settings_other (sensorOf_ne (hk k)),
    hran.inbox, fun _ => hran.csOther, hran.refusedMark, hran.waiting, hran.hist⟩

/-- Settles O45: `CFG.s` writes the lifecycle and the record of its own sensor only. -/
theorem configureFrame : Obligations.ConfigureFrame := by
  intro r s t h
  have hran := exec_ran (device_unique (devUsed_cfgInstr r)) h
  have hk : ∀ k, k ≠ sensorOf r → writesLife (cfgInstr r) ≠ some k := fun k hk => by
    simpa [writesLife_cfgInstr] using hk.symm
  exact ⟨hran.cfg,
    fun k hne => ⟨hran.life_other (hk k hne), hran.settings_other (sensorOf_ne (hk k hne))⟩,
    hran.inbox, fun _ => hran.csOther, hran.refusedMark, hran.waiting, hran.hist⟩

/-- Settles O46: `EN.s` writes the lifecycle of its own sensor only, and no record. -/
theorem enableFrame : Obligations.EnableFrame := by
  intro k s t h
  have hran := exec_ran (device_unique (devUsed_enInstr k)) h
  have hk : ∀ k', k' ≠ k → writesLife (enInstr k) ≠ some k' := fun k' hk => by
    simpa [writesLife_enInstr] using hk.symm
  exact ⟨hran.cfg, fun k' => hran.settings_other fun r hr => absurd hr.symm (cfgInstr_ne_enInstr r k),
    fun k' hne => hran.life_other (hk k' hne), hran.inbox, fun _ => hran.csOther, hran.refusedMark,
    hran.waiting, hran.hist⟩

/-- Settles O52: only the success of `CFG.s` and of `EN.s` writes a lifecycle. -/
theorem lifecycleTransitions : Obligations.LifecycleTransitions := by
  intro i s t k h hne
  obtain ⟨d, hd⟩ := exists_device i
  exact (exec_ran hd h).life_change hne

/-! ### Steps -/

theorem step_hung {s : State} {c : BusCall} (hw : s.waiting = some c) : step s = .fault (.hung c) := by
  simp only [step, hw]

theorem step_idle {s : State} (hw : s.waiting = none) (hin : s.inbox = []) : step s = .next s := by
  simp only [step, hw, hin]

theorem step_decoded {s : State} {r : Request} {rest : List Request} {i : Instr}
    (hw : s.waiting = none) (hin : s.inbox = r :: rest) (hdec : decode r = .ok i) :
    step s = exec i (s.take rest) := by
  simp only [step, hw, hin, hdec]

theorem step_rejected {s : State} {r : Request} {rest : List Request} {e : DecodeError}
    (hw : s.waiting = none) (hin : s.inbox = r :: rest) (hdec : decode r = .error e) :
    step s = rejectRequest e (s.take rest) := by
  simp only [step, hw, hin, hdec]

theorem rejectRequest_next {e : DecodeError} {s t : State} (h : rejectRequest e s = .next t) :
    t = s.refuse .reservedCommand := by
  cases e <;> cases h
  rfl

/-- Everything a step with a next state can have done: the block hung on nothing before it; it had no
request to run, or it ran one, or it refused a reserved command word. -/
theorem step_cases {s t : State} (h : step s = .next t) :
    s.waiting = none ∧
    (t = s ∨ (∃ rest d i, Ran d i (s.take rest) t) ∨ ∃ rest q, t = (s.take rest).refuse q) := by
  cases hw : s.waiting with
  | some c => simp [step_hung hw] at h
  | none =>
    refine ⟨rfl, ?_⟩
    cases hin : s.inbox with
    | nil =>
      rw [step_idle hw hin] at h
      exact .inl (Host.Outcome.next.inj h).symm
    | cons r rest =>
      cases hdec : decode r with
      | ok i =>
        rw [step_decoded hw hin hdec] at h
        obtain ⟨d, hd⟩ := exists_device i
        exact .inr (.inl ⟨rest, d, i, exec_ran hd h⟩)
      | error e =>
        rw [step_rejected hw hin hdec] at h
        exact .inr (.inr ⟨rest, _, rejectRequest_next h⟩)

theorem decodeTableWord_some {w : Nat} {i : Instr} (h : decodeTableWord 8 w = some i) :
    w < 256 ∧ decode (tableRequest (BitVec.ofNat 8 w)) = .ok i := by
  unfold decodeTableWord at h
  split at h
  · rename_i hw
    cases hdec : decode (tableRequest (BitVec.ofNat 8 w)) with
    | ok j => simpa [hdec, hw.2] using h
    | error e => simp [hdec] at h
  · cases h

/-- Settles O5: a table word is presented in front of `inbox`, and taking it gives the state back. -/
theorem stepRunsDecodedInstruction : Obligations.StepRunsDecodedInstruction := by
  refine ⟨fun s r rest i hw hin hdec => step_decoded hw hin hdec, fun s w i hw h => ?_⟩
  obtain ⟨hlt, hdec⟩ := decodeTableWord_some h
  have hfetch : s.withFetchWord 8 w = s.present (tableRequest (BitVec.ofNat 8 w)) :=
    if_pos ⟨rfl, hlt⟩
  rw [hfetch]
  exact step_decoded (s := s.present _) hw rfl hdec

/-- Settles O47: an instruction keeps R28 and R25, and so does a refused or an absent request. -/
theorem stepKeepsInvariant : Obligations.StepKeepsInvariant := by
  rintro s t ⟨hslots, hidle, haddr⟩ h
  obtain ⟨hw, rfl | ⟨rest, d, i, hran⟩ | ⟨rest, q, rfl⟩⟩ := step_cases h
  · exact ⟨hslots, hidle, haddr⟩
  · have hcs : (s.take rest).CsIdle := hidle hw
    refine ⟨hran.slotsAgree hslots, fun ht => hran.csIdle hcs (.inl ht), fun hk => ?_⟩
    exact hran.csIdle hcs (.inr (hran.cfg ▸ hk))
  · exact ⟨hslots, hidle, haddr⟩

/-- Settles O55: the bus part of an instruction is whole operations, and an open one where it hangs. -/
theorem busTrafficIsWholeOperations : Obligations.BusTrafficIsWholeOperations := by
  intro s t h
  obtain ⟨hw, rfl | ⟨rest, d, i, hran⟩ | ⟨rest, q, rfl⟩⟩ := step_cases h
  · exact traffic_none rfl hw
  · exact hran.traffic hw
  · exact traffic_none rfl hw

/-- Settles O50: the bus operations, the success of a command and its reply are no write to `cfg`. -/
theorem configurationIsNeverWritten : Obligations.ConfigurationIsNeverWritten := by
  refine ⟨fun s t h => ?_, fun i s t h => ?_⟩
  · obtain ⟨-, rfl | ⟨rest, d, i, hran⟩ | ⟨rest, q, rfl⟩⟩ := step_cases h
    · rfl
    · exact hran.cfg
    · rfl
  · obtain ⟨d, hd⟩ := exists_device i
    exact (exec_ran hd h).cfg

/-- Settles O51: an instruction keeps the mark, or it is refused and does nothing else. -/
theorem refusedMarkIsSticky : Obligations.RefusedMarkIsSticky := by
  refine ⟨fun s t h => ?_, fun i s t q h hq => ?_⟩
  · obtain ⟨-, rfl | ⟨rest, d, i, hran⟩ | ⟨rest, q, rfl⟩⟩ := step_cases h
    · exact ⟨id, fun hf ht => absurd ht (by simp [hf])⟩
    · obtain ⟨q, hq, rfl⟩ | ⟨hkept, -⟩ := hran.refuse_or_keepsMark
      · exact ⟨fun _ => rfl, fun _ _ => ⟨q, hq⟩⟩
      · exact ⟨hkept.trans, fun hf ht => absurd ht (by simp [hkept, hf])⟩
    · exact ⟨fun _ => rfl, fun _ _ => ⟨q, rfl⟩⟩
  · obtain ⟨d, hd⟩ := exists_device i
    obtain ⟨q', hq', rfl⟩ | ⟨-, hno⟩ := (exec_ran hd h).refuse_or_keepsMark
    · obtain rfl : q' = q := by simpa using hq
      rfl
    · exact absurd hq (hno q)

/-- Settles O53: both changes of a lifecycle go up in the order of R26. -/
theorem lifecycleNeverFallsBack : Obligations.LifecycleNeverFallsBack := by
  intro s t k h
  obtain ⟨-, rfl | ⟨rest, d, i, hran⟩ | ⟨rest, q, rfl⟩⟩ := step_cases h
  · exact le_rfl
  · by_cases hne : t.life k = s.life k
    · rw [hne]
    obtain ⟨-, ⟨r, -, -, hs, ht⟩ | ⟨-, hs, ht⟩⟩ := hran.life_change (k := k) hne <;>
      rw [take_life] at hs <;> simp [hs, ht, lifeRank]
  · exact le_rfl

end Sys2Proof.Running

/-!
PROOF. What an instruction does not read: the history (10_state.md R32), the reply of an earlier one (R31),
and the lifecycle and settings of a sensor that it does not name (R26).

All three are one fact (`exec_map`): a change of the state that the named operations carry along, is
carried along by every instruction. Each statement then checks the operations for its own change.
-/

namespace Sys2Proof.Unread

open Sys2Proof.Machine Sys2Proof.Running

/-- `φ` changes nothing that an instruction reads outside the sensors' slots, and every operation on the
bus carries the change along. The end of a command, which writes the reply, turns it into `ψ`. -/
structure Carried (φ ψ : State → State) : Prop where
  cfg : ∀ s, (φ s).cfg = s.cfg
  nextDraw : ∀ s, (φ s).nextDraw = s.nextDraw
  busDone : ∀ s d n es, (φ s).busDone d n es = φ (s.busDone d n es)
  csSet : ∀ s d l, csSet d l (φ s) = φ (csSet d l s)
  hungOn : ∀ s c, (φ s).hungOn c = φ (s.hungOn c)
  finish : ∀ s r, (φ s).finish r = ψ (s.finish r)

/-- `φ` leaves the lifecycle and the settings of sensor `k` alone. -/
structure KeepsSlot (φ : State → State) (k : Sensor) : Prop where
  life : ∀ s, (φ s).life k = s.life k
  settings : ∀ s, (φ s).settings k = s.settings k
  setLife : ∀ s v, (φ s).setLife k v = φ (s.setLife k v)
  store : ∀ s r, sensorOf r = k → (φ s).store r = φ (s.store r)

/-- A change of the state, on the next state that an instruction or a step answers. -/
def mapNext (ψ : State → State) : Host.Outcome State Fault Refusal →
    Host.Outcome State Fault Refusal
  | .next t => .next (ψ t)
  | .fault f => .fault f
  | .refused r => .refused r

/-- A change of the state, on the state in which an operation ends. -/
def mapState {α : Type} (φ : State → State) (p : Res α × State) : Res α × State := (p.1, φ p.2)

/-- The end of the writes of configure and enable: after their success `land` writes the slot. -/
def landing (land : State → State) (p : Res Unit × State) : Res Unit × State :=
  (p.1, match p.1 with
    | .ok _ => land p.2
    | _ => p.2)

theorem configure_eq (r : Settings) (s : State) :
    configure r s =
      if unimplemented s.cfg.kind (devOf (sensorOf r)) then .next (s.refuse .unimplemented)
      else finish (fun _ => .unit) (landing (State.configured · r)
        (writeAll (devOf (sensorOf r)) (configureWrites s.cfg (s.life (sensorOf r)) r) s)) := rfl

section

variable {φ ψ : State → State} (h : Carried φ ψ)
include h

/-! ### The operations -/

theorem writeHung_map (s : State) (d : Dev) (reg : Byte) (data : List Byte) :
    (φ s).writeHung d reg data = φ (s.writeHung d reg data) := by
  cases hk : s.cfg.kind with
  | serial => rw [writeHung_serial hk, writeHung_serial (h.cfg s ▸ hk), h.csSet, h.hungOn]
  | addressed => rw [writeHung_addressed hk, writeHung_addressed (h.cfg s ▸ hk), h.cfg, h.hungOn]

theorem readHung_map (s : State) (d : Dev) (reg : Byte) (n : Nat) :
    (φ s).readHung d reg n = φ (s.readHung d reg n) := by
  cases hk : s.cfg.kind with
  | serial => rw [readHung_serial hk, readHung_serial (h.cfg s ▸ hk), h.csSet, h.hungOn]
  | addressed => rw [readHung_addressed hk, readHung_addressed (h.cfg s ▸ hk), h.cfg, h.hungOn]

theorem memWrite_map (d : Dev) (reg : Byte) (data : List Byte) (s : State) :
    memWrite d reg data (φ s) = mapState φ (memWrite d reg data s) := by
  have hc := congrArg Cfg.kind (h.cfg s)
  obtain ⟨hd, hm⟩ | ⟨hd, hn, hm⟩ | ⟨hd, a, ha, hm⟩ := memWrite_cases d reg data s <;> rw [hm]
  · exact memWrite_unimplemented (hc ▸ hd)
  · rw [memWrite_hang (hc ▸ hd) (h.nextDraw s ▸ hn), writeHung_map h]; rfl
  · rw [memWrite_answer (hc ▸ hd) (h.nextDraw s ▸ ha), h.cfg, h.busDone]; rfl

theorem memRead_map (d : Dev) (reg : Byte) (n : Nat) (s : State) :
    memRead d reg n (φ s) = mapState φ (memRead d reg n s) := by
  have hc := congrArg Cfg.kind (h.cfg s)
  obtain ⟨hd, hm⟩ | ⟨hd, hn, hm⟩ | ⟨hd, a, ha, hm⟩ := memRead_cases d reg n s <;> rw [hm]
  · exact memRead_unimplemented (hc ▸ hd)
  · rw [memRead_hang (hc ▸ hd) (h.nextDraw s ▸ hn), readHung_map h]; rfl
  · rw [memRead_answer (hc ▸ hd) (h.nextDraw s ▸ ha), h.cfg, h.busDone]; rfl

theorem writeAll_map (d : Dev) (ws : List RegEntry) (s : State) :
    writeAll d ws (φ s) = mapState φ (writeAll d ws s) := by
  induction ws generalizing s with
  | nil => rfl
  | cons w ws ih =>
    simp only [writeAll, memWrite_map h]
    rcases memWrite d w.reg [w.value] s with ⟨r, s'⟩
    cases r with
    | ok => exact ih s'
    | _ => rfl

theorem readSample_map {α : Type} (d : Dev) (reg : Byte) (n : Nat) (sample : List Byte → Option α)
    (s : State) : readSample d reg n sample (φ s) = mapState φ (readSample d reg n sample s) := by
  simp only [readSample, memRead_map h]
  rcases memRead d reg n s with ⟨r, s'⟩
  cases r with
  | ok b => cases hb : sample b <;> simp [mapState, hb]
  | _ => rfl

/-! ### The families of instructions -/

theorem finish_map {α : Type} (f : α → Value) (p : Res α × State) :
    finish f (mapState φ p) = mapNext ψ (finish f p) :=
  congrArg Host.Outcome.next (h.finish p.2 (p.1.map f))

theorem refuse_map (s : State) (q : RefuseReason) :
    Host.Outcome.next ((φ s).refuse q) = mapNext ψ (.next (s.refuse q)) :=
  congrArg Host.Outcome.next (h.finish s (.refused q))

/-- The end of a command that uses no bus. -/
theorem value_map {α : Type} (f : α → Value) (v : α) (s : State) :
    finish f (.ok v, φ s) = mapNext ψ (finish f (.ok v, s)) := finish_map h f (.ok v, s)

theorem raiseSequence_map (cmd : SeqCmd) (req : DriverState) (s : State) :
    raiseSequence cmd req (φ s) = mapNext ψ (raiseSequence cmd req s) :=
  congrArg Host.Outcome.next (h.finish s _)

theorem transportWrite_map (d : Dev) (reg : Byte) (data : List Byte) (s : State) :
    transportWrite d reg data (φ s) = mapNext ψ (transportWrite d reg data s) := by
  unfold transportWrite
  rw [h.cfg, memWrite_map h, finish_map h]
  split
  · exact refuse_map h ..
  · rfl

theorem transportRead_map (d : Dev) (reg : Byte) (n : Nat) (s : State) :
    transportRead d reg n (φ s) = mapNext ψ (transportRead d reg n s) := by
  unfold transportRead
  rw [h.cfg, memRead_map h, finish_map h]
  split
  · exact refuse_map h ..
  · rfl

theorem onBus_map {kind : BusKind} {fits : Bool} {n : Nat} {s : State}
    {run run' : Host.Outcome State Fault Refusal}
    (hrun : s.cfg.kind = kind → run' = mapNext ψ run) :
    onBus kind fits n (φ s) run' = mapNext ψ (onBus kind fits n s run) := by
  unfold onBus
  rw [h.cfg]
  split
  · rfl
  · rename_i hk
    split
    · exact hrun (not_not.1 hk)
    · exact refuse_map h ..

theorem spiWriteFrame_map (d : Dev) (fits : Bool) (reg : Byte) (data : List Byte) (s : State) :
    spiWriteFrame d fits reg data (φ s) = mapNext ψ (spiWriteFrame d fits reg data s) := by
  refine onBus_map h fun hk => ?_
  rw [← memWrite_serial hk, ← memWrite_serial (h.cfg s ▸ hk), memWrite_map h, finish_map h]

theorem spiReadFrame_map (d : Dev) (fits : Bool) (reg : Byte) (n : Nat) (s : State) :
    spiReadFrame d fits reg n (φ s) = mapNext ψ (spiReadFrame d fits reg n s) := by
  refine onBus_map h fun hk => ?_
  rw [← memRead_serial hk, ← memRead_serial (h.cfg s ▸ hk), memRead_map h, finish_map h]

theorem execI2cAgPtr_map (reg : Byte) (use : PtrUse) (s : State) :
    execI2cAgPtr reg use (φ s) = mapNext ψ (execI2cAgPtr reg use s) := by
  cases use with
  | write data =>
    refine onBus_map h fun hk => ?_
    rw [← memWrite_addressed hk, ← memWrite_addressed (h.cfg s ▸ hk), memWrite_map h, finish_map h]
  | read n =>
    refine onBus_map h fun hk => ?_
    rw [← memRead_addressed hk, ← memRead_addressed (h.cfg s ▸ hk), memRead_map h, finish_map h]

theorem readTempRaw_map (s : State) : readTempRaw (φ s) = mapState φ (readTempRaw s) := by
  unfold readTempRaw
  rw [h.cfg, readSample_map h]

theorem readRaw3_map (k : Sensor) (s : State) : readRaw3 k (φ s) = mapState φ (readRaw3 k s) := by
  unfold readRaw3
  rw [h.cfg, readSample_map h]

theorem readRaw_map {k : Sensor} (hk : KeepsSlot φ k) (s : State) :
    readRaw k (φ s) = mapNext ψ (readRaw k s) := by
  unfold readRaw
  rw [h.cfg, hk.life, readRaw3_map h, finish_map h]
  split
  · exact refuse_map h ..
  split
  · exact raiseSequence_map h ..
  · rfl

theorem readPhys_map {k : Sensor} (hk : KeepsSlot φ k) (s : State) :
    readPhys k (φ s) = mapNext ψ (readPhys k s) := by
  unfold readPhys
  rw [h.cfg, hk.life, hk.settings, readRaw3_map h]
  split
  · exact refuse_map h ..
  split
  · exact raiseSequence_map h ..
  split
  · rfl
  · exact finish_map h ..

omit h in
theorem configured_map {r : Settings} (hk : KeepsSlot φ (sensorOf r)) (s : State) :
    (φ s).configured r = φ (s.configured r) := by
  unfold State.configured
  simp only [hk.life, hk.store s r rfl, hk.setLife]
  split <;> rfl

omit h in
theorem landing_map {land : State → State} (hland : ∀ s, land (φ s) = φ (land s))
    (p : Res Unit × State) : landing land (mapState φ p) = mapState φ (landing land p) := by
  obtain ⟨res, s⟩ := p
  cases res with
  | ok => exact congrArg (Prod.mk _) (hland s)
  | _ => rfl

theorem configure_map {r : Settings} (hk : KeepsSlot φ (sensorOf r)) (s : State) :
    configure r (φ s) = mapNext ψ (configure r s) := by
  rw [configure_eq, configure_eq, h.cfg, hk.life, writeAll_map h, landing_map (configured_map hk),
    finish_map h]
  split
  · exact refuse_map h ..
  · rfl

theorem enable_map {k : Sensor} (hk : KeepsSlot φ k) (s : State) :
    enable k (φ s) = mapNext ψ (enable k s) := by
  unfold enable
  rw [h.cfg, hk.life, hk.settings]
  split
  · exact refuse_map h ..
  split
  · exact raiseSequence_map h ..
  split
  · rfl
  rename_i r _
  rw [writeAll_map h]
  have hland := landing_map (land := (State.setLife · k .enabled)) (hk.setLife · .enabled)
    (writeAll (devOf k) (ofClass .enable (toRegisterBits s.cfg r)) s)
  exact (congrArg (finish fun _ => .unit) hland).trans (finish_map h ..)

/-! ### Every instruction -/

/-- A change that the operations carry along, and that leaves the slot of the sensor named alone, is
carried along by the instruction. -/
theorem exec_map {i : Instr} (hk : ∀ k, sensorNamed i = some k → KeepsSlot φ k) (s : State) :
    exec i (φ s) = mapNext ψ (exec i s) := by
  cases i with
  | cfgXl a => exact configure_map h (r := .xl a) (hk _ rfl) s
  | cfgG g => exact configure_map h (r := .g g) (hk _ rfl) s
  | cfgM m => exact configure_map h (r := .m m) (hk _ rfl) s
  | enXl | enG | enM => exact enable_map h (hk _ rfl) s
  | rdXl | rdG | rdM => exact readPhys_map h (hk _ rfl) s
  | rdrawXl | rdrawG | rdrawM => exact readRaw_map h (hk _ rfl) s
  | rdT | rdrawT =>
    simp only [exec, execRdT, execRdrawT, readTempRaw_map h, h.cfg]
    exact finish_map h ..
  | twrAg reg data | twrM reg data => exact transportWrite_map h _ reg data s
  | trdAg reg n | trdM reg n => exact transportRead_map h _ reg n s
  | encXl _ | encG _ | encM _ =>
    simp only [exec, execEncXl, execEncG, execEncM, h.cfg]
    exact value_map h ..
  | sensXl _ | sensG _ | sensM _ =>
    simp only [exec, execSensXl, execSensG, execSensM, h.cfg]
    exact value_map h ..
  | convXl _ _ _ _ | convG _ _ _ _ | convM _ _ _ _ =>
    simp only [exec, execConvXl, execConvG, execConvM, h.cfg]
    exact value_map h ..
  | tconv _ =>
    simp only [exec, execTconv, h.cfg]
    exact value_map h ..
  | spiAgWrite reg data | spiMWriteB reg data => exact spiWriteFrame_map h _ _ reg data s
  | spiMWrite1 reg b => exact spiWriteFrame_map h _ _ reg [b] s
  | spiAgRead reg n | spiMReadB reg n => exact spiReadFrame_map h _ _ reg n s
  | spiMRead1 reg => exact spiReadFrame_map h _ _ reg 1 s
  | i2cAgPtr reg use => exact execI2cAgPtr_map h reg use s

end

/-! ### The history -/

/-- The state with the events `es` before its history. -/
def withPast (es : List BusEvent) (s : State) : State := { s with hist := es ++ s.hist }

theorem withPast_carried (es : List BusEvent) : Carried (withPast es) (withPast es) where
  cfg _ := rfl
  nextDraw _ := rfl
  busDone s d n fs := by
    cases hk : s.cfg.kind <;> cases d <;> simp [State.busDone, withPast, hk]
  csSet s d l := by
    cases d <;> simp [csSet, State.setCs, State.emit, withPast]
  hungOn _ _ := rfl
  finish _ r := by cases r <;> rfl

theorem withPast_keepsSlot (es : List BusEvent) (k : Sensor) : KeepsSlot (withPast es) k where
  life _ := rfl
  settings _ := rfl
  setLife _ _ := by cases k <;> rfl
  store _ r _ := by cases r <;> rfl

theorem rejectRequest_map {φ ψ : State → State} (h : Carried φ ψ) (e : DecodeError) (s : State) :
    rejectRequest e (φ s) = mapNext ψ (rejectRequest e s) := by
  cases e with
  | reservedCommand => exact refuse_map h ..
  | _ => rfl

/-- Earlier events change a step in nothing but themselves. -/
theorem step_withPast (es : List BusEvent) (s : State) :
    step (withPast es s) = mapNext (withPast es) (step s) := by
  have hc := withPast_carried es
  cases hw : s.waiting with
  | some c => rw [step_hung hw, step_hung (s := withPast es s) hw]; rfl
  | none =>
    cases hin : s.inbox with
    | nil => rw [step_idle hw hin, step_idle (s := withPast es s) hw hin]; rfl
    | cons r rest =>
      cases hdec : decode r with
      | ok i =>
        rw [step_decoded hw hin hdec, step_decoded (s := withPast es s) hw hin hdec]
        exact exec_map hc (fun k _ => withPast_keepsSlot es k) (s.take rest)
      | error e =>
        rw [step_rejected hw hin hdec, step_rejected (s := withPast es s) hw hin hdec]
        exact rejectRequest_map hc e (s.take rest)

/-- Settles O56: the history is only appended to. -/
theorem historyIsNeverRead : Obligations.HistoryIsNeverRead := by
  intro s es
  refine (step_withPast es s).trans ?_
  cases step s <;> rfl

/-! ### The reply -/

/-- The end of every command writes the reply, so an earlier one is gone by then. -/
theorem replying_carried (q : Option Reply) :
    Carried (fun s => replying s q) id where
  cfg _ := rfl
  nextDraw _ := rfl
  busDone s d n fs := by
    cases hk : s.cfg.kind <;> cases d <;> simp [State.busDone, replying, hk]
  csSet _ d _ := by cases d <;> rfl
  hungOn _ _ := rfl
  finish _ r := by cases r <;> rfl

theorem replying_keepsSlot (q : Option Reply) (k : Sensor) :
    KeepsSlot (fun s => replying s q) k where
  life _ := rfl
  settings _ := rfl
  setLife _ _ := by cases k <;> rfl
  store _ r _ := by cases r <;> rfl

/-- Settles O57: only the end of a command touches the reply, and it writes it. -/
theorem replyIsNeverRead : Obligations.ReplyIsNeverRead := by
  intro i s q
  refine (exec_map (replying_carried q) (fun k _ => replying_keepsSlot q k) s).trans ?_
  cases exec i s <;> rfl

/-! ### The slots of the sensors -/

theorem slotFrom_carried (u : State) (k : Sensor) :
    Carried (fun s => s.slotFrom u k) (fun s => s.slotFrom u k) where
  cfg _ := by cases k <;> rfl
  nextDraw _ := by cases k <;> rfl
  busDone s d n fs := by
    cases hk : s.cfg.kind <;> cases d <;> cases k <;> simp [State.busDone, State.slotFrom, hk]
  csSet _ d _ := by cases k <;> cases d <;> rfl
  hungOn _ _ := by cases k <;> rfl
  finish _ r := by cases k <;> cases r <;> rfl

theorem slotFrom_keepsSlot (u : State) {k k' : Sensor} (hne : k' ≠ k) :
    KeepsSlot (fun s => s.slotFrom u k) k' where
  life _ := by cases k <;> cases k' <;> first | contradiction | rfl
  settings _ := by cases k <;> cases k' <;> first | contradiction | rfl
  setLife _ _ := by cases k <;> cases k' <;> first | contradiction | rfl
  store _ r hr := by
    subst hr
    cases k <;> cases r <;> first | contradiction | rfl

/-- Settles O58: an instruction reads and writes no other slot than that of the sensor it names. -/
theorem sensorsAreIndependent : Obligations.SensorsAreIndependent := by
  intro i s u k hi
  have hkeeps : ∀ k', sensorNamed i = some k' → KeepsSlot (fun s => s.slotFrom u k) k' :=
    fun k' hk' => slotFrom_keepsSlot u fun heq => hi (heq ▸ hk')
  refine (exec_map (slotFrom_carried u k) hkeeps s).trans ?_
  cases exec i s <;> rfl

end Sys2Proof.Unread

/-!
PROOF. Where an instruction has a next state (60_exceptions.md R319, R322), what a wire-frame row does out of
its form (assumption log 5), and a transfer with no answer (R33, R367).
-/

namespace Sys2Proof.Ending

open Sys2Proof.Machine Sys2Proof.Running

/-! ### Wire-frame rows -/

theorem onBus_otherBus {kind : BusKind} {s : State} (hk : s.cfg.kind ≠ kind) (fits : Bool) (n : Nat)
    (run : Host.Outcome State Fault Refusal) :
    onBus kind fits n s run = .refused (.frameOfOtherBus s.cfg.kind) :=
  if_pos hk

theorem onBus_outOfForm {kind : BusKind} {fits : Bool} {n : Nat} {s : State}
    (hk : s.cfg.kind = kind) (hf : fits = false ∨ s.cfg.maxBurst < n)
    (run : Host.Outcome State Fault Refusal) :
    onBus kind fits n s run = .next (s.refuse .operandOutOfRange) := by
  have hno : (fits && decide (n ≤ s.cfg.maxBurst)) ≠ true := by
    obtain rfl | hn := hf <;> simp [*]
  rw [onBus, if_neg (not_not.2 hk), if_neg hno]

/-- A wire-frame row is `onBus` of an operation that ends, with its row's bus, form and byte count. -/
theorem exec_frame {i : Instr} {kind : BusKind} (h : frameKind i = some kind) (s : State) :
    ∃ u, exec i s = onBus kind i.wf (frameBytes i) s (.next u) := by
  cases i with
  | spiAgWrite | spiAgRead | spiMWrite1 | spiMWriteB | spiMRead1 | spiMReadB =>
    cases h
    exact ⟨_, rfl⟩
  | i2cAgPtr reg use =>
    cases h
    cases use <;> exact ⟨_, rfl⟩
  | _ => cases h

/-- Settles O33: the bus kind is checked before the form, and both before the operation. -/
theorem wireFrameRowsOutOfForm : Obligations.WireFrameRowsOutOfForm := by
  intro i s kind h
  obtain ⟨u, hu⟩ := exec_frame h s
  rw [hu]
  exact ⟨fun hk => onBus_otherBus hk .., fun hk hf => onBus_outOfForm hk hf _⟩

/-! ### Next states -/

theorem configure_next (r : Settings) (s : State) : ∃ t, configure r s = .next t := by
  simp only [configure]
  split <;> exact ⟨_, rfl⟩

theorem enable_next {s : State} (hs : s.SlotsAgree) (k : Sensor) : ∃ t, enable k s = .next t := by
  unfold enable
  split
  · exact ⟨_, rfl⟩
  split
  · exact ⟨_, rfl⟩
  rename_i hl
  split
  · rename_i hnone
    exact absurd ((hs k).2 hnone) hl
  · exact ⟨_, rfl⟩

theorem readPhys_next {s : State} (hs : s.SlotsAgree) (k : Sensor) :
    ∃ t, readPhys k s = .next t := by
  unfold readPhys
  split
  · exact ⟨_, rfl⟩
  split
  · exact ⟨_, rfl⟩
  rename_i hl
  split
  · rename_i hnone
    simp [(hs k).2 hnone] at hl
  · exact ⟨_, rfl⟩

theorem readRaw_next (k : Sensor) (s : State) : ∃ t, readRaw k s = .next t := by
  unfold readRaw
  split
  · exact ⟨_, rfl⟩
  split <;> exact ⟨_, rfl⟩

theorem transportWrite_next (d : Dev) (reg : Byte) (data : List Byte) (s : State) :
    ∃ t, transportWrite d reg data s = .next t := by
  unfold transportWrite
  split <;> exact ⟨_, rfl⟩

theorem transportRead_next (d : Dev) (reg : Byte) (n : Nat) (s : State) :
    ∃ t, transportRead d reg n s = .next t := by
  unfold transportRead
  split <;> exact ⟨_, rfl⟩

theorem onBus_next {kind : BusKind} {s : State} (hk : s.cfg.kind = kind) (fits : Bool) (n : Nat)
    (u : State) : ∃ t, onBus kind fits n s (.next u) = .next t := by
  rw [onBus, if_neg (not_not.2 hk)]
  split <;> exact ⟨_, rfl⟩

/-- Settles O49: only a missing record stops `EN.s` and `RD.s`, and R28 has the record there. -/
theorem everyCommandEndsInNextState : Obligations.EveryCommandEndsInNextState := by
  intro i s hs hframe
  cases hk : frameKind i with
  | some kind =>
    obtain ⟨u, hu⟩ := exec_frame hk s
    rw [hu]
    exact onBus_next (hframe kind hk) ..
  | none =>
    cases i with
    | cfgXl | cfgG | cfgM => exact configure_next _ s
    | enXl | enG | enM => exact enable_next hs _
    | rdXl | rdG | rdM => exact readPhys_next hs _
    | rdrawXl | rdrawG | rdrawM => exact readRaw_next _ s
    | twrAg | twrM => exact transportWrite_next _ _ _ s
    | trdAg | trdM => exact transportRead_next _ _ _ s
    | spiAgWrite | spiAgRead | spiMWrite1 | spiMWriteB | spiMRead1 | spiMReadB | i2cAgPtr => cases hk
    | _ => exact ⟨_, rfl⟩

/-! ### A transfer with no answer -/

/-- The operands that `TWR.AG` and `TRD.AG` admit (R93). -/
theorem refusal?_ag_none {c : Cfg} {reg : Byte} {n : Nat} (hreg : c.kind = .serial → reg.toNat ≤ 0x7F)
    (hpos : 1 ≤ n) (hmax : n ≤ c.maxBurst) : refusal? c .ag reg n = none := by
  have hrange : ¬(n = 0 ∨ c.maxBurst < n) := by omega
  cases hk : c.kind with
  | serial => simp [refusal?, hrange, reachable, unimplemented, hk, hreg hk]
  | addressed => simp [refusal?, hrange, reachable, unimplemented, hk]

theorem unimplemented_ag (kind : BusKind) : unimplemented kind .ag = false := by
  cases kind <;> rfl

theorem transportWrite_hang {s : State} {reg : Byte} {data : List Byte} (hn : s.nextDraw = .noAnswer)
    (hr : refusal? s.cfg .ag reg data.length = none) :
    transportWrite .ag reg data s = .next (replying (s.writeHung .ag reg data) none) := by
  simp only [transportWrite, hr, memWrite_hang (unimplemented_ag _) hn]
  rfl

theorem transportRead_hang {s : State} {reg : Byte} {n : Nat} (hn : s.nextDraw = .noAnswer)
    (hr : refusal? s.cfg .ag reg n = none) :
    transportRead .ag reg n s = .next (replying (s.readHung .ag reg n) none) := by
  simp only [transportRead, hr, memRead_hang (unimplemented_ag _) hn]
  rfl

/-- Settles O30: the transfer of an admitted command is the one that the block then waits on. -/
theorem unansweredTransferHangsTheBlock : Obligations.UnansweredTransferHangsTheBlock := by
  intro s reg hn hreg
  refine ⟨fun data hpos hmax => ?_, fun n hpos hmax => ?_⟩
  · have hexec := transportWrite_hang hn (refusal?_ag_none hreg hpos hmax)
    cases hk : s.cfg.kind with
    | serial =>
      rw [writeHung_serial hk] at hexec
      exact ⟨_, _, hexec, rfl, rfl, step_hung rfl, fun _ => ⟨rfl, rfl, rfl⟩, nofun⟩
    | addressed =>
      rw [writeHung_addressed hk] at hexec
      exact ⟨_, _, hexec, rfl, rfl, step_hung rfl, nofun, fun _ => ⟨rfl, rfl⟩⟩
  · have hexec := transportRead_hang hn (refusal?_ag_none hreg hpos hmax)
    cases hk : s.cfg.kind with
    | serial =>
      rw [readHung_serial hk] at hexec
      exact ⟨_, _, hexec, rfl, rfl, step_hung rfl, fun _ => ⟨rfl, rfl, rfl⟩, nofun⟩
    | addressed =>
      rw [readHung_addressed hk] at hexec
      exact ⟨_, _, hexec, rfl, rfl, step_hung rfl, nofun, fun _ => ⟨rfl, rfl⟩⟩

end Sys2Proof.Ending

/-!
PROOF. Reads with a full answer (20_memory.md R57, R58, 43_driver_facade.md R270): one burst, whose bytes, low
byte first, are the samples.
-/

namespace Sys2Proof.FullAnswer

open Sys2Proof.Machine

/-! ### The burst -/

theorem unimplemented_devOf {kind : BusKind} {k : Sensor} (h : kind = .addressed → k ≠ .m) :
    unimplemented kind (devOf k) = false := by
  cases kind with
  | serial => cases k <;> rfl
  | addressed =>
    cases k with
    | m => exact absurd rfl (h rfl)
    | _ => rfl

/-- A full answer is judged a success, without the byte received during the address byte (R116). -/
theorem readEnd_received (c : Cfg) (d : Dev) (reg junk : Byte) (data : List Byte) :
    readEnd c d reg data.length (.ok (received c junk data)) = .ok data := by
  cases hk : c.kind <;> simp [readEnd, readOk, received, hk]

theorem readSample_received {α : Type} {d : Dev} {s : State} {junk : Byte} {data : List Byte}
    {sample : List Byte → Option α} {v : α} (hd : unimplemented s.cfg.kind d = false)
    (hn : s.nextDraw = .ok (received s.cfg junk data)) (hv : sample data = some v) (reg : Byte) :
    readSample d reg data.length sample s =
      (.ok v, s.busDone d 1
        (readEvents s.cfg d reg data.length (.ok (received s.cfg junk data)))) := by
  have hans : ansOf s.nextDraw = some (.ok (received s.cfg junk data)) := by rw [hn]; rfl
  have hread := memRead_answer (reg := reg) (n := data.length) hd hans
  rw [readEnd_received] at hread
  simp only [readSample, hread, hv]

/-! ### The samples -/

/-- The 6-byte burst of a sensor that the block reaches: X, Y and Z, low byte first (R58, R226). -/
theorem readRaw3_received {s : State} {k : Sensor} {junk xl xh yl yh zl zh : Byte}
    (hk : s.cfg.kind = .addressed → k ≠ .m)
    (hn : s.nextDraw = .ok (received s.cfg junk [xl, xh, yl, yh, zl, zh])) :
    readRaw3 k s = (.ok ⟨xh ++ xl, yh ++ yl, zh ++ zl⟩, s.busDone (devOf k) 1
      (readEvents s.cfg (devOf k) (dataReg s.cfg.regmap k) 6
        (.ok (received s.cfg junk [xl, xh, yl, yh, zl, zh])))) := by
  refine readSample_received (unimplemented_devOf hk) hn ?_ _
  simp only [sample3, raw16_eq_append]

/-- The 2-byte burst of the temperature, low byte first (R57, R225), on both buses. -/
theorem readTempRaw_received {s : State} {junk lo hi : Byte}
    (hn : s.nextDraw = .ok (received s.cfg junk [lo, hi])) :
    readTempRaw s = (.ok (hi ++ lo), s.busDone .ag 1
      (readEvents s.cfg .ag s.cfg.regmap.outTempL 2 (.ok (received s.cfg junk [lo, hi])))) := by
  refine readSample_received (Ending.unimplemented_ag _) hn ?_ _
  simp only [sample1, raw16_eq_append]

/-! ### The commands -/

/-- A command whose operations succeeded answers their value after the bus part. -/
theorem finish_busDone {α : Type} (f : α → Value) (v : α) (s : State) (d : Dev) (n : Nat)
    (es : List BusEvent) :
    finish f (.ok v, s.busDone d n es) = .next (s.afterBus d n es (.ok (f v))) := rfl

theorem readRaw_enabled {s : State} {k : Sensor} (hk : s.cfg.kind = .addressed → k ≠ .m)
    (hl : s.life k = .enabled) : readRaw k s = finish .raw3 (readRaw3 k s) := by
  simp [readRaw, unimplemented_devOf hk, hl]

theorem exec_rdT (s : State) :
    exec .rdT s = finish (fun raw => .phys (temp s.cfg raw)) (readTempRaw s) := rfl

theorem exec_rdrawT (s : State) : exec .rdrawT s = finish .raw (readTempRaw s) := rfl

/-- Settles O39: in `Enabled` the command is its burst. -/
theorem rawReadAnswersTheBurst : Obligations.RawReadAnswersTheBurst := by
  intro s k junk xl xh yl yh zl zh hk hl hn
  rw [exec_rdrawInstr, readRaw_enabled hk hl, readRaw3_received hk hn]
  exact finish_busDone ..

/-- Settles O40: both commands are the one burst, with and without the conversion; no step of either looks
at a lifecycle. -/
theorem temperatureReadsAnswer : Obligations.TemperatureReadsAnswer := by
  intro s junk lo hi hn
  refine ⟨?_, ?_⟩
  · rw [exec_rdT, readTempRaw_received hn]
    exact finish_busDone ..
  · rw [exec_rdrawT, readTempRaw_received hn]
    exact finish_busDone ..

end Sys2Proof.FullAnswer

/-!
PROOF. The encoding of 30_encoding.md: the decoder and the encoder are inverse to each other (R81 to
R92), reserved command words (R94), and the pseudo-instructions (R98).
-/

namespace Sys2Proof.Codec

open Sys2Proof.Machine Sys2Proof.Laws.FirstByte

/-! ### Command words (R89 to R92) -/

theorem opOf_tgtOf_of_cmdOf {op tgt : Nat} {c : Cmd} (h : cmdOf op tgt = some c) :
    op = opOf c.word ∧ tgt = tgtOf c.word := by
  unfold cmdOf at h
  split at h <;> cases h <;> exact ⟨rfl, rfl⟩

theorem decodeWord_word (c : Cmd) : decodeWord c.word = some c := by
  cases c <;> rfl

theorem word_of_decodeWord {w : Byte} {c : Cmd} (h : decodeWord w = some c) : c.word = w := by
  obtain ⟨hop, htgt⟩ := opOf_tgtOf_of_cmdOf h
  simp only [opOf, tgtOf] at hop htgt
  exact BitVec.eq_of_toNat_eq (by omega)

/-- The words of R90 and R91 by their two fields. -/
theorem word_listed (c : Cmd) :
    let op := c.word.toNat / 16
    let tgt := c.word.toNat % 16
    (op = 1 ∨ op = 2 ∨ op = 7 ∨ op = 8 ∨ op = 9) ∧ tgt ≤ 2 ∨
      (op = 3 ∨ op = 4) ∧ tgt ≤ 3 ∨ (op = 5 ∨ op = 6) ∧ tgt ≤ 1 ∨ op = 10 ∧ tgt = 0 := by
  cases c <;> decide

theorem decodeCommand_word (c : Cmd) (p : Payload) : decodeCommand c.word p = withPayload c p := by
  simp only [decodeCommand, decodeWord_word]

theorem decodeCommand_reserved {w : Byte} (h : decodeWord w = none) (p : Payload) :
    decodeCommand w p = .error .reservedCommand := by
  simp only [decodeCommand, h]

/-- A payload of the word's type is the operand of the command, unchanged. -/
theorem encode_of_withPayload {c : Cmd} {p : Payload} {i : Instr} (h : withPayload c p = .ok i) :
    i.wf = true ∧ encode i = .command c.word p := by
  unfold withPayload at h
  split at h <;> cases h <;> exact ⟨rfl, rfl⟩

/-! ### Serial address bytes (R81 to R83) -/

theorem abyteAg_toNat : ∀ (rw : BitVec 1) (reg : Byte),
    (abyteAg rw reg).toNat = 128 * rw.toNat + reg.toNat % 128 := by decide

theorem abyteM_toNat : ∀ (rw ms : BitVec 1) (reg : Byte),
    (abyteM rw ms reg).toNat = 128 * rw.toNat + 64 * ms.toNat + reg.toNat % 64 := by decide

theorem msBit_toNat (n : Nat) : (msBit n).toNat = if 1 < n then 1 else 0 := by
  unfold msBit
  split <;> rfl

theorem abyteAg_bit7 : ∀ (rw : BitVec 1) (reg : Byte),
    (abyteAg rw reg).getLsbD 7 = rw.getLsbD 0 := by decide

theorem spiAgReg_abyteAg : ∀ (rw : BitVec 1) (reg : Byte), fitsSpiAg reg = true →
    spiAgReg (abyteAg rw reg) = reg := by decide

theorem fitsSpiAg_spiAgReg : ∀ a : Byte, fitsSpiAg (spiAgReg a) = true := by decide

theorem abyteAg_spiAgReg : ∀ (rw : BitVec 1) (a : Byte), a.getLsbD 7 = rw.getLsbD 0 →
    abyteAg rw (spiAgReg a) = a := by decide

theorem abyteM_bit7 : ∀ (rw ms : BitVec 1) (reg : Byte),
    (abyteM rw ms reg).getLsbD 7 = rw.getLsbD 0 := by decide

theorem abyteM_bit6 : ∀ (rw ms : BitVec 1) (reg : Byte),
    (abyteM rw ms reg).getLsbD 6 = ms.getLsbD 0 := by decide

theorem spiMReg_abyteM : ∀ (rw ms : BitVec 1) (reg : Byte), fitsSpiM reg = true →
    spiMReg (abyteM rw ms reg) = reg := by decide

theorem fitsSpiM_spiMReg : ∀ a : Byte, fitsSpiM (spiMReg a) = true := by decide

theorem abyteM_spiMReg : ∀ (rw ms : BitVec 1) (a : Byte), a.getLsbD 7 = rw.getLsbD 0 →
    a.getLsbD 6 = ms.getLsbD 0 → abyteM rw ms (spiMReg a) = a := by decide

/-! ### Serial frames (R84, R85) -/

theorem isFiller_iff {bs : List Byte} : isFiller bs = true ↔ zeros bs.length = bs := by
  rw [zeros, eq_comm (b := bs), List.eq_replicate_length]
  simp [isFiller]

theorem isFiller_zeros (n : Nat) : isFiller (zeros n) = true := by
  simp [isFiller_iff, zeros]

theorem zeros_length (n : Nat) : (zeros n).length = n := List.length_replicate

theorem decodeSpiAg_ok_iff {a : Byte} {rest : List Byte} {i : Instr} :
    decodeSpiAg a rest = .ok i ↔ rest ≠ [] ∧
      (a.getLsbD 7 = false ∧ .spiAgWrite (spiAgReg a) rest = i ∨
        a.getLsbD 7 = true ∧ isFiller rest = true ∧ .spiAgRead (spiAgReg a) rest.length = i) := by
  unfold decodeSpiAg
  generalize a.getLsbD 7 = rw, isFiller rest = filler
  by_cases hne : rest = []
  · simp [hne]
  · cases rw <;> cases filler <;> simp [hne]

theorem decodeSpiM_ok_iff {a : Byte} {rest : List Byte} {i : Instr} :
    decodeSpiM a rest = .ok i ↔
      a.getLsbD 7 = false ∧
        (a.getLsbD 6 = false ∧ (∃ b, rest = [b] ∧ .spiMWrite1 (spiMReg a) b = i) ∨
          a.getLsbD 6 = true ∧ 2 ≤ rest.length ∧ .spiMWriteB (spiMReg a) rest = i) ∨
      a.getLsbD 7 = true ∧ isFiller rest = true ∧
        (a.getLsbD 6 = false ∧ rest.length = 1 ∧ .spiMRead1 (spiMReg a) = i ∨
          a.getLsbD 6 = true ∧ 2 ≤ rest.length ∧ .spiMReadB (spiMReg a) rest.length = i) := by
  unfold decodeSpiM
  generalize a.getLsbD 7 = rw, a.getLsbD 6 = ms, isFiller rest = filler
  match rest with
  | [] => cases rw <;> cases filler <;> simp
  | [b] => cases rw <;> cases filler <;> cases ms <;> simp
  | b :: c :: bs => cases rw <;> cases filler <;> cases ms <;> simp

/-! ### The form of a wire-frame row (R81 to R88) -/

theorem wf_spiAgWrite {reg : Byte} {data : List Byte} :
    (Instr.spiAgWrite reg data).wf = true ↔ fitsSpiAg reg = true ∧ 1 ≤ data.length := by
  simp only [Instr.wf, Bool.and_eq_true, decide_eq_true_eq]

theorem wf_spiAgRead {reg : Byte} {n : Nat} :
    (Instr.spiAgRead reg n).wf = true ↔ fitsSpiAg reg = true ∧ 1 ≤ n := by
  simp only [Instr.wf, Bool.and_eq_true, decide_eq_true_eq]

theorem wf_spiMWriteB {reg : Byte} {data : List Byte} :
    (Instr.spiMWriteB reg data).wf = true ↔ fitsSpiM reg = true ∧ 2 ≤ data.length := by
  simp only [Instr.wf, Bool.and_eq_true, decide_eq_true_eq]

theorem wf_spiMReadB {reg : Byte} {n : Nat} :
    (Instr.spiMReadB reg n).wf = true ↔ fitsSpiM reg = true ∧ 2 ≤ n := by
  simp only [Instr.wf, Bool.and_eq_true, decide_eq_true_eq]

theorem wf_i2cAgPtr_write {reg : Byte} {data : List Byte} :
    (Instr.i2cAgPtr reg (.write data)).wf = true ↔ 1 ≤ data.length := decide_eq_true_iff

theorem wf_i2cAgPtr_read {reg : Byte} {n : Nat} :
    (Instr.i2cAgPtr reg (.read n)).wf = true ↔ 1 ≤ n := decide_eq_true_iff

/-! ### The frame of a serial row -/

theorem encode_spiAgWrite (reg : Byte) (data : List Byte) :
    encode (.spiAgWrite reg data) = .frame (.spi .ag (abyteAg 0 reg :: data)) := rfl

theorem encode_spiAgRead (reg : Byte) (n : Nat) :
    encode (.spiAgRead reg n) = .frame (.spi .ag (abyteAg 1 reg :: zeros n)) := rfl

theorem encode_spiMWrite1 (reg b : Byte) :
    encode (.spiMWrite1 reg b) = .frame (.spi .m [abyteM 0 0 reg, b]) := rfl

theorem encode_spiMWriteB {data : List Byte} (h : 2 ≤ data.length) (reg : Byte) :
    encode (.spiMWriteB reg data) = .frame (.spi .m (abyteM 0 1 reg :: data)) := by
  rw [encode, spiWriteOut, abyte, msBit_burst h]

theorem encode_spiMRead1 (reg : Byte) :
    encode (.spiMRead1 reg) = .frame (.spi .m (abyteM 1 0 reg :: zeros 1)) := rfl

theorem encode_spiMReadB {n : Nat} (h : 2 ≤ n) (reg : Byte) :
    encode (.spiMReadB reg n) = .frame (.spi .m (abyteM 1 1 reg :: zeros n)) := by
  rw [encode, spiReadOut, abyte, msBit_burst h]

/-! ### From an instruction to its request and back -/

theorem decode_encode_command {i : Instr} {c : Cmd} {p : Payload}
    (he : encode i = .command c.word p) (hp : withPayload c p = .ok i) :
    decode (encode i) = .ok i := by
  rw [he]
  exact (decodeCommand_word c p).trans hp

theorem decode_encode (i : Instr) (h : i.wf = true) : decode (encode i) = .ok i := by
  cases i with
  | spiAgWrite reg data =>
    obtain ⟨hreg, hlen⟩ := wf_spiAgWrite.1 h
    rw [encode_spiAgWrite]
    refine decodeSpiAg_ok_iff.2 ⟨List.ne_nil_of_length_pos hlen, .inl ⟨abyteAg_bit7 .., ?_⟩⟩
    rw [spiAgReg_abyteAg _ _ hreg]
  | spiAgRead reg n =>
    obtain ⟨hreg, hlen⟩ := wf_spiAgRead.1 h
    have hne : zeros n ≠ [] := List.ne_nil_of_length_pos (by rwa [zeros_length])
    rw [encode_spiAgRead]
    refine decodeSpiAg_ok_iff.2 ⟨hne, .inr ⟨abyteAg_bit7 .., isFiller_zeros n, ?_⟩⟩
    rw [spiAgReg_abyteAg _ _ hreg, zeros_length]
  | spiMWrite1 reg b =>
    refine decodeSpiM_ok_iff.2 (.inl ⟨abyteM_bit7 .., .inl ⟨abyteM_bit6 _ 0 _, b, rfl, ?_⟩⟩)
    rw [spiMReg_abyteM _ _ _ h]
  | spiMWriteB reg data =>
    obtain ⟨hreg, hlen⟩ := wf_spiMWriteB.1 h
    rw [encode_spiMWriteB hlen]
    refine decodeSpiM_ok_iff.2 (.inl ⟨abyteM_bit7 .., .inr ⟨abyteM_bit6 .., hlen, ?_⟩⟩)
    rw [spiMReg_abyteM _ _ _ hreg]
  | spiMRead1 reg =>
    refine decodeSpiM_ok_iff.2
      (.inr ⟨abyteM_bit7 .., isFiller_zeros 1, .inl ⟨abyteM_bit6 _ 0 _, zeros_length 1, ?_⟩⟩)
    rw [spiMReg_abyteM _ _ _ h]
  | spiMReadB reg n =>
    obtain ⟨hreg, hlen⟩ := wf_spiMReadB.1 h
    rw [encode_spiMReadB hlen]
    refine decodeSpiM_ok_iff.2
      (.inr ⟨abyteM_bit7 .., isFiller_zeros n, .inr ⟨abyteM_bit6 .., ?_, ?_⟩⟩)
    · rwa [zeros_length]
    · rw [spiMReg_abyteM _ _ _ hreg, zeros_length]
  | i2cAgPtr reg use =>
    cases use with
    | write data =>
      cases data with
      | nil => simp [wf_i2cAgPtr_write] at h
      | cons b bs => rfl
    | read n => exact if_neg (Nat.one_le_iff_ne_zero.1 (wf_i2cAgPtr_read.1 h))
  | _ => exact decode_encode_command rfl rfl

theorem decode_of_encode_eq {r : Request} {i : Instr} (he : encode i = r) (hwf : i.wf = true) :
    decode r = .ok i :=
  he ▸ decode_encode i hwf

theorem encode_decodeSpiAg {a : Byte} {rest : List Byte} {i : Instr}
    (h : decodeSpiAg a rest = .ok i) : i.wf = true ∧ encode i = .frame (.spi .ag (a :: rest)) := by
  obtain ⟨hne, ⟨hrw, rfl⟩ | ⟨hrw, hfill, rfl⟩⟩ := decodeSpiAg_ok_iff.1 h
  · refine ⟨wf_spiAgWrite.2 ⟨fitsSpiAg_spiAgReg a, List.length_pos_of_ne_nil hne⟩, ?_⟩
    rw [encode_spiAgWrite, abyteAg_spiAgReg 0 a hrw]
  · refine ⟨wf_spiAgRead.2 ⟨fitsSpiAg_spiAgReg a, List.length_pos_of_ne_nil hne⟩, ?_⟩
    rw [encode_spiAgRead, abyteAg_spiAgReg 1 a hrw, isFiller_iff.1 hfill]

theorem encode_decodeSpiM {a : Byte} {rest : List Byte} {i : Instr}
    (h : decodeSpiM a rest = .ok i) : i.wf = true ∧ encode i = .frame (.spi .m (a :: rest)) := by
  obtain ⟨hrw, ⟨hms, b, rfl, rfl⟩ | ⟨hms, hlen, rfl⟩⟩ |
    ⟨hrw, hfill, ⟨hms, hlen, rfl⟩ | ⟨hms, hlen, rfl⟩⟩ := decodeSpiM_ok_iff.1 h
  · refine ⟨fitsSpiM_spiMReg a, ?_⟩
    rw [encode_spiMWrite1, abyteM_spiMReg 0 0 a hrw hms]
  · refine ⟨wf_spiMWriteB.2 ⟨fitsSpiM_spiMReg a, hlen⟩, ?_⟩
    rw [encode_spiMWriteB hlen, abyteM_spiMReg 0 1 a hrw hms]
  · refine ⟨fitsSpiM_spiMReg a, ?_⟩
    rw [encode_spiMRead1, abyteM_spiMReg 1 0 a hrw hms, ← hlen, isFiller_iff.1 hfill]
  · refine ⟨wf_spiMReadB.2 ⟨fitsSpiM_spiMReg a, hlen⟩, ?_⟩
    rw [encode_spiMReadB hlen, abyteM_spiMReg 1 1 a hrw hms, isFiller_iff.1 hfill]

theorem encode_decodeFrame {f : WireFrame} {i : Instr} (h : decodeFrame f = .ok i) :
    i.wf = true ∧ encode i = .frame f := by
  unfold decodeFrame at h
  split at h
  · cases h
  · exact encode_decodeSpiAg h
  · exact encode_decodeSpiM h
  · cases h
    exact ⟨wf_i2cAgPtr_write.2 (Nat.succ_pos _), rfl⟩
  · cases h
  · split at h
    · cases h
    · rename_i hn
      cases h
      exact ⟨wf_i2cAgPtr_read.2 (Nat.pos_of_ne_zero hn), rfl⟩
  · cases h

theorem encode_decode {r : Request} {i : Instr} (h : decode r = .ok i) :
    i.wf = true ∧ encode i = r := by
  cases r with
  | command w p =>
    cases hc : decodeWord w with
    | none => simp [decode, decodeCommand_reserved hc] at h
    | some c =>
      obtain rfl := word_of_decodeWord hc
      exact encode_of_withPayload ((decodeCommand_word c p).symm.trans h)
  | frame f => exact encode_decodeFrame h

/-- Settles O2: each field of the address byte is read back as it was put in, and a payload as it
stands. -/
theorem decodeOfEncodeGivesInstruction : Obligations.DecodeOfEncodeGivesInstruction := decode_encode

/-- Settles O3: an address byte is made of its fields, and the filler and the count of each row are
fixed. -/
theorem decodedRequestIsItsEncoding : Obligations.DecodedRequestIsItsEncoding :=
  fun _ _ => encode_decode

/-- Settles O1: the words and frames listed are the encodings of the instructions listed. -/
theorem wordsAndFramesDecodeByTable : Obligations.WordsAndFramesDecodeByTable := by
  and_intros
  all_goals intros
  all_goals exact decode_of_encode_eq rfl rfl

/-- Settles O4: `op` and `tgt` of every command word are listed, so a word that is not listed
selects no command. -/
theorem reservedCommandWordIsRefused : Obligations.ReservedCommandWordIsRefused := by
  intro s w p rest hw hin hres
  have hnone : decodeWord w = none := by
    cases hc : decodeWord w with
    | none => rfl
    | some c =>
      obtain rfl := word_of_decodeWord hc
      exact absurd (word_listed c) hres
  exact Running.step_rejected hw hin (decodeCommand_reserved hnone p)

/-- Settles O7: the fields of the address byte stand at 128, 64 and 1, and `ms` is `msBit`. -/
theorem serialAddressByteByRule : Obligations.SerialAddressByteByRule := by
  intro rw reg n
  refine ⟨fun hreg => ?_, fun hreg => ?_⟩
  · rw [abyte, abyteAg_toNat]
    omega
  · rw [abyte, abyteM_toNat, msBit_toNat]
    split <;> omega

/-! ### The assembler (R98) -/

theorem byteOf_toNat (reg : Byte) : byteOf reg.toNat = some reg := by
  have hrange : (0 : Int) ≤ reg.toNat ∧ (reg.toNat : Int) < 256 := by omega
  simp [byteOf, hrange]

/-- Settles O60: both forms give the default record, and a byte's number is read as that byte. -/
theorem pseudoInstructionsExpandByRule : Obligations.PseudoInstructionsExpandByRule := by
  refine ⟨?_, rfl, rfl, rfl, fun reg => ⟨?_, ?_⟩⟩
  · rintro a (rfl | rfl) <;> exact ⟨rfl, rfl, rfl⟩
  · simp [assemble, byteOf_toNat, Pseudo.expand]
  · simp [assemble, byteOf_toNat, Pseudo.expand]

end Sys2Proof.Codec

/-!
PROOF. The transport commands and the wire-frame rows (30_encoding.md R81 to R95, 40_transport.md R129
to R133): which operands are admitted, the one operation of an admitted command, and its frame.
-/

namespace Sys2Proof.OnWire

open Sys2Proof.Machine Sys2Proof.Laws.FirstByte Sys2Proof.Codec

/-! ### Admission (R93) -/

theorem refusal?_m_none {c : Cfg} {reg : Byte} {n : Nat} (hk : c.kind = .serial)
    (hreg : reg.toNat ≤ 0x3F) (hpos : 1 ≤ n) (hmax : n ≤ c.maxBurst) :
    refusal? c .m reg n = none := by
  have hrange : ¬(n = 0 ∨ c.maxBurst < n) := by omega
  simp [refusal?, hrange, reachable, unimplemented, hk, hreg]

/-- The largest register that a serial frame of the device holds (R51). -/
def reach : Dev → Nat
  | .ag => 0x7F
  | .m => 0x3F

theorem reachable_serial (d : Dev) (reg : Byte) :
    reachable .serial d reg = decide (reg.toNat ≤ reach d) := by
  cases d <;> rfl

theorem refusal?_outOfRange {c : Cfg} {d : Dev} {reg : Byte} {n : Nat}
    (h : n = 0 ∨ c.maxBurst < n ∨ (c.kind = .serial ∧ reach d < reg.toNat)) :
    refusal? c d reg n = some .operandOutOfRange := by
  by_cases hcount : n = 0 ∨ c.maxBurst < n
  · rw [refusal?, if_pos hcount]
  · obtain h | h | ⟨hk, hreg⟩ := h
    · exact absurd (.inl h) hcount
    · exact absurd (.inr h) hcount
    · have hfar : reachable c.kind d reg = false := by
        rw [hk, reachable_serial]
        exact decide_eq_false (by omega)
      rw [refusal?, if_neg hcount, hfar]
      rfl

theorem unimplemented_of_refusal?_none {c : Cfg} {d : Dev} {reg : Byte} {n : Nat}
    (h : refusal? c d reg n = none) : unimplemented c.kind d = false := by
  unfold refusal? at h
  split_ifs at h with _ _ hu
  exact Bool.eq_false_iff.2 hu

theorem transportWrite_refused {s : State} {d : Dev} {reg : Byte} {data : List Byte}
    {q : RefuseReason} (h : refusal? s.cfg d reg data.length = some q) :
    transportWrite d reg data s = .next (s.refuse q) := by
  simp only [transportWrite, h]

theorem transportRead_refused {s : State} {d : Dev} {reg : Byte} {n : Nat} {q : RefuseReason}
    (h : refusal? s.cfg d reg n = some q) : transportRead d reg n s = .next (s.refuse q) := by
  simp only [transportRead, h]

theorem transportWrite_admitted {s : State} {d : Dev} {reg : Byte} {data : List Byte}
    (h : refusal? s.cfg d reg data.length = none) :
    transportWrite d reg data s = finish (fun _ => .unit) (memWrite d reg data s) := by
  simp only [transportWrite, h]

theorem transportRead_admitted {s : State} {d : Dev} {reg : Byte} {n : Nat}
    (h : refusal? s.cfg d reg n = none) :
    transportRead d reg n s = finish .bytes (memRead d reg n s) := by
  simp only [transportRead, h]

/-- Settles O28: the count and the register are checked first, and a refusal does nothing else. -/
theorem transportOperandsOutOfRangeAreRefused :
    Obligations.TransportOperandsOutOfRangeAreRefused := by
  intro s reg
  refine ⟨fun n h => ⟨?_, ?_⟩, fun n h => ⟨?_, ?_⟩⟩
  · exact transportRead_refused (refusal?_outOfRange (d := .ag) h)
  · rintro data rfl
    exact transportWrite_refused (refusal?_outOfRange (d := .ag) h)
  · exact transportRead_refused (refusal?_outOfRange (d := .m) h)
  · rintro data rfl
    exact transportWrite_refused (refusal?_outOfRange (d := .m) h)

/-! ### An admitted command with a good answer (R130 to R133) -/

theorem writeOk_ok {c : Cfg} {n : Nat} {inb : List Byte}
    (h : c.kind = .serial → inb.length = n + 1) : writeOk c n (.ok inb) = true := by
  cases hk : c.kind with
  | serial => simp [writeOk, hk, h hk]
  | addressed => simp [writeOk, hk]

theorem transportWrite_ok {s : State} {d : Dev} {reg : Byte} {data inb : List Byte}
    (hr : refusal? s.cfg d reg data.length = none) (hn : s.nextDraw = .ok inb)
    (hl : s.cfg.kind = .serial → inb.length = data.length + 1) :
    transportWrite d reg data s =
      .next (s.afterBus d 1 (writeEvents s.cfg d reg data (.ok inb)) (.ok .unit)) := by
  have hans : ansOf s.nextDraw = some (.ok inb) := by rw [hn]; rfl
  have hend : writeEnd s.cfg d reg data.length (.ok inb) = .ok () := if_pos (writeOk_ok hl)
  rw [transportWrite_admitted hr, memWrite_answer (unimplemented_of_refusal?_none hr) hans, hend]
  exact FullAnswer.finish_busDone ..

theorem transportRead_ok {s : State} {d : Dev} {reg junk : Byte} {data : List Byte}
    (hr : refusal? s.cfg d reg data.length = none)
    (hn : s.nextDraw = .ok (received s.cfg junk data)) :
    transportRead d reg data.length s =
      .next (s.afterBus d 1 (readEvents s.cfg d reg data.length (.ok (received s.cfg junk data)))
        (.ok (.bytes data))) := by
  have hans : ansOf s.nextDraw = some (.ok (received s.cfg junk data)) := by rw [hn]; rfl
  rw [transportRead_admitted hr, memRead_answer (unimplemented_of_refusal?_none hr) hans,
    FullAnswer.readEnd_received]
  exact FullAnswer.finish_busDone ..

/-- Settles O25: the one write of an admitted command succeeds. -/
theorem twrWritesOneFrame : Obligations.TwrWritesOneFrame := by
  intro s reg data inb hpos hmax hn hl
  refine ⟨fun hreg => ?_, fun hk hreg => ?_⟩
  · exact transportWrite_ok (Ending.refusal?_ag_none hreg hpos hmax) hn hl
  · exact transportWrite_ok (refusal?_m_none hk hreg hpos hmax) hn hl

/-- Settles O26: the one read of an admitted command answers its data bytes. -/
theorem trdAnswersDataBytes : Obligations.TrdAnswersDataBytes := by
  intro s reg junk data hpos hmax hn
  refine ⟨fun hreg => ?_, fun hk hreg => ?_⟩
  · exact transportRead_ok (Ending.refusal?_ag_none hreg hpos hmax) hn
  · exact transportRead_ok (refusal?_m_none hk hreg hpos hmax) hn

/-! ### A wire-frame row is a transport command (R110) -/

theorem onBus_admitted {kind : BusKind} {fits : Bool} {n : Nat} {s : State}
    (hk : s.cfg.kind = kind) (hf : fits = true) (hmax : n ≤ s.cfg.maxBurst)
    (run : Host.Outcome State Fault Refusal) : onBus kind fits n s run = run := by
  simp [onBus, hk, hf, hmax]

theorem spiWriteFrame_eq_transportWrite {s : State} {d : Dev} {fits : Bool} {reg : Byte}
    {data : List Byte} (hk : s.cfg.kind = .serial) (hf : fits = true)
    (hmax : data.length ≤ s.cfg.maxBurst) (hr : refusal? s.cfg d reg data.length = none) :
    spiWriteFrame d fits reg data s = transportWrite d reg data s := by
  rw [transportWrite_admitted hr, memWrite_serial hk]
  exact onBus_admitted hk hf hmax _

theorem spiReadFrame_eq_transportRead {s : State} {d : Dev} {fits : Bool} {reg : Byte} {n : Nat}
    (hk : s.cfg.kind = .serial) (hf : fits = true) (hmax : n ≤ s.cfg.maxBurst)
    (hr : refusal? s.cfg d reg n = none) :
    spiReadFrame d fits reg n s = transportRead d reg n s := by
  rw [transportRead_admitted hr, memRead_serial hk]
  exact onBus_admitted hk hf hmax _

theorem fitsSpiAg_of_le {reg : Byte} (h : reg.toNat ≤ 0x7F) : fitsSpiAg reg = true :=
  decide_eq_true h

theorem fitsSpiM_of_le {reg : Byte} (h : reg.toNat ≤ 0x3F) : fitsSpiM reg = true :=
  decide_eq_true h

section
variable {s : State} {reg : Byte} {data : List Byte} {n : Nat}

theorem exec_spiAgWrite (hk : s.cfg.kind = .serial) (hreg : reg.toNat ≤ 0x7F)
    (hpos : 1 ≤ data.length) (hmax : data.length ≤ s.cfg.maxBurst) :
    exec (.spiAgWrite reg data) s = exec (.twrAg reg data) s :=
  spiWriteFrame_eq_transportWrite hk (wf_spiAgWrite.2 ⟨fitsSpiAg_of_le hreg, hpos⟩) hmax
    (Ending.refusal?_ag_none (fun _ => hreg) hpos hmax)

theorem exec_spiAgRead (hk : s.cfg.kind = .serial) (hreg : reg.toNat ≤ 0x7F) (hpos : 1 ≤ n)
    (hmax : n ≤ s.cfg.maxBurst) : exec (.spiAgRead reg n) s = exec (.trdAg reg n) s :=
  spiReadFrame_eq_transportRead hk (wf_spiAgRead.2 ⟨fitsSpiAg_of_le hreg, hpos⟩) hmax
    (Ending.refusal?_ag_none (fun _ => hreg) hpos hmax)

theorem exec_spiMWrite1 (hk : s.cfg.kind = .serial) (hreg : reg.toNat ≤ 0x3F)
    (hmax : 1 ≤ s.cfg.maxBurst) (b : Byte) : exec (.spiMWrite1 reg b) s = exec (.twrM reg [b]) s :=
  spiWriteFrame_eq_transportWrite hk (fitsSpiM_of_le hreg) hmax
    (refusal?_m_none hk hreg le_rfl hmax)

theorem exec_spiMRead1 (hk : s.cfg.kind = .serial) (hreg : reg.toNat ≤ 0x3F)
    (hmax : 1 ≤ s.cfg.maxBurst) : exec (.spiMRead1 reg) s = exec (.trdM reg 1) s :=
  spiReadFrame_eq_transportRead hk (fitsSpiM_of_le hreg) hmax (refusal?_m_none hk hreg le_rfl hmax)

theorem exec_spiMWriteB (hk : s.cfg.kind = .serial) (hreg : reg.toNat ≤ 0x3F)
    (hlen : 2 ≤ data.length) (hmax : data.length ≤ s.cfg.maxBurst) :
    exec (.spiMWriteB reg data) s = exec (.twrM reg data) s :=
  spiWriteFrame_eq_transportWrite hk (wf_spiMWriteB.2 ⟨fitsSpiM_of_le hreg, hlen⟩) hmax
    (refusal?_m_none hk hreg (by omega) hmax)

theorem exec_spiMReadB (hk : s.cfg.kind = .serial) (hreg : reg.toNat ≤ 0x3F) (hlen : 2 ≤ n)
    (hmax : n ≤ s.cfg.maxBurst) : exec (.spiMReadB reg n) s = exec (.trdM reg n) s :=
  spiReadFrame_eq_transportRead hk (wf_spiMReadB.2 ⟨fitsSpiM_of_le hreg, hlen⟩) hmax
    (refusal?_m_none hk hreg (by omega) hmax)

theorem exec_i2cAgPtr_write (hk : s.cfg.kind = .addressed) (hpos : 1 ≤ data.length)
    (hmax : data.length ≤ s.cfg.maxBurst) :
    exec (.i2cAgPtr reg (.write data)) s = exec (.twrAg reg data) s := by
  refine (onBus_admitted hk (wf_i2cAgPtr_write.2 hpos) hmax _).trans ?_
  rw [← memWrite_addressed hk]
  exact (transportWrite_admitted (Ending.refusal?_ag_none (by simp [hk]) hpos hmax)).symm

theorem exec_i2cAgPtr_read (hk : s.cfg.kind = .addressed) (hpos : 1 ≤ n)
    (hmax : n ≤ s.cfg.maxBurst) :
    exec (.i2cAgPtr reg (.read n)) s = exec (.trdAg reg n) s := by
  refine (onBus_admitted hk (wf_i2cAgPtr_read.2 hpos) hmax _).trans ?_
  rw [← memRead_addressed hk]
  exact (transportRead_admitted (Ending.refusal?_ag_none (by simp [hk]) hpos hmax)).symm

end

/-- Settles O32, row by row: the form that a row checks lies inside what the command admits. -/
theorem wireFrameRowsEqualTransportCommands : Obligations.WireFrameRowsEqualTransportCommands :=
  fun _ _ b _ _ =>
    ⟨fun hk =>
      ⟨exec_spiAgWrite hk, exec_spiAgRead hk,
        fun hreg hmax => ⟨exec_spiMWrite1 hk hreg hmax b, exec_spiMRead1 hk hreg hmax⟩,
        exec_spiMWriteB hk, exec_spiMReadB hk⟩,
    fun hk => ⟨exec_i2cAgPtr_write hk, exec_i2cAgPtr_read hk⟩⟩

/-! ### The bytes of each frame (R84 to R88) -/

theorem abyteAg_write_of_le : ∀ reg : Byte, reg.toNat ≤ 0x7F → abyteAg 0 reg = reg := by decide

theorem abyteAg_read_of_le : ∀ reg : Byte, reg.toNat ≤ 0x7F → abyteAg 1 reg = reg ||| 0x80 := by
  decide

theorem abyteM_write1_of_le : ∀ reg : Byte, reg.toNat ≤ 0x3F → abyteM 0 0 reg = reg := by decide

theorem abyteM_writeB_of_le : ∀ reg : Byte, reg.toNat ≤ 0x3F → abyteM 0 1 reg = reg ||| 0x40 := by
  decide

theorem abyteM_read1_of_le : ∀ reg : Byte, reg.toNat ≤ 0x3F → abyteM 1 0 reg = reg ||| 0x80 := by
  decide

theorem abyteM_readB_of_le : ∀ reg : Byte, reg.toNat ≤ 0x3F → abyteM 1 1 reg = reg ||| 0xC0 := by
  decide

theorem spiWriteOut_ag {reg : Byte} (h : reg.toNat ≤ 0x7F) (data : List Byte) :
    spiWriteOut .ag reg data = reg :: data := by
  rw [spiWriteOut, abyte, abyteAg_write_of_le reg h]

theorem spiReadOut_ag {reg : Byte} (h : reg.toNat ≤ 0x7F) (n : Nat) :
    spiReadOut .ag reg n = (reg ||| 0x80) :: zeros n := by
  rw [spiReadOut, abyte, abyteAg_read_of_le reg h]

theorem spiWriteOut_m_single {reg : Byte} (h : reg.toNat ≤ 0x3F) (b : Byte) :
    spiWriteOut .m reg [b] = [reg, b] :=
  congrArg (· :: [b]) (abyteM_write1_of_le reg h)

theorem spiWriteOut_m_burst {reg : Byte} (h : reg.toNat ≤ 0x3F) {data : List Byte}
    (hlen : 2 ≤ data.length) : spiWriteOut .m reg data = (reg ||| 0x40) :: data := by
  rw [spiWriteOut, abyte, msBit_burst hlen, abyteM_writeB_of_le reg h]

theorem spiReadOut_m_single {reg : Byte} (h : reg.toNat ≤ 0x3F) :
    spiReadOut .m reg 1 = [reg ||| 0x80, 0] :=
  congrArg (· :: [0]) (abyteM_read1_of_le reg h)

theorem spiReadOut_m_burst {reg : Byte} (h : reg.toNat ≤ 0x3F) {n : Nat} (hlen : 2 ≤ n) :
    spiReadOut .m reg n = (reg ||| 0xC0) :: zeros n := by
  rw [spiReadOut, abyte, msBit_burst hlen, abyteM_readB_of_le reg h]

/-! ### The state after a frame -/

theorem writeEvents_serial {c : Cfg} (hk : c.kind = .serial) (d : Dev) (reg : Byte)
    (data : List Byte) (a : Ans (List Byte)) :
    writeEvents c d reg data a = [.cs d .low, .xfer (spiWriteOut d reg data) a, .cs d .high] := by
  simp only [writeEvents, hk]

theorem readEvents_serial {c : Cfg} (hk : c.kind = .serial) (d : Dev) (reg : Byte) (n : Nat)
    (a : Ans (List Byte)) :
    readEvents c d reg n a = [.cs d .low, .xfer (spiReadOut d reg n) a, .cs d .high] := by
  simp only [readEvents, hk]

theorem writeEvents_addressed {c : Cfg} (hk : c.kind = .addressed) (d : Dev) (reg : Byte)
    (data inb : List Byte) :
    writeEvents c d reg data (.ok inb) = [.iwr c.agAddr (reg :: data) (.ok ())] := by
  simp only [writeEvents, hk]

theorem readEvents_addressed {c : Cfg} (hk : c.kind = .addressed) (d : Dev) (reg : Byte) (n : Nat)
    (a : Ans (List Byte)) : readEvents c d reg n a = [.iwrrd c.agAddr [reg] n a] := by
  simp only [readEvents, hk]

theorem received_serial {c : Cfg} (hk : c.kind = .serial) (junk : Byte) (data : List Byte) :
    received c junk data = junk :: data := by
  simp only [received, hk]

theorem received_addressed {c : Cfg} (hk : c.kind = .addressed) (junk : Byte) (data : List Byte) :
    received c junk data = data := by
  simp only [received, hk]

section
variable {s : State} {d : Dev} {reg : Byte} {inb out : List Byte}

theorem transportWrite_serial {data : List Byte} (hk : s.cfg.kind = .serial)
    (hr : refusal? s.cfg d reg data.length = none) (hn : s.nextDraw = .ok inb)
    (hl : inb.length = data.length + 1) (hout : spiWriteOut d reg data = out) :
    transportWrite d reg data s =
      .next (s.afterBus d 1 [.cs d .low, .xfer out (.ok inb), .cs d .high] (.ok .unit)) := by
  rw [transportWrite_ok hr hn (fun _ => hl), writeEvents_serial hk, hout]

/-- The byte that comes in during the address byte is the first received one (R116). -/
theorem transportRead_serial {n : Nat} (hk : s.cfg.kind = .serial)
    (hr : refusal? s.cfg d reg n = none) (hn : s.nextDraw = .ok inb) (hl : inb.length = n + 1)
    (hout : spiReadOut d reg n = out) :
    transportRead d reg n s =
      .next (s.afterBus d 1 [.cs d .low, .xfer out (.ok inb), .cs d .high]
        (.ok (.bytes (inb.drop 1)))) := by
  obtain ⟨junk, data, rfl⟩ := List.exists_cons_of_length_eq_add_one hl
  obtain rfl : data.length = n := Nat.succ.inj hl
  have hrec := received_serial hk junk data
  rw [transportRead_ok hr (hn.trans (congrArg Draw.ok hrec.symm)), readEvents_serial hk, hrec, hout,
    List.drop_one, List.tail_cons]

end

/-- Settles O31: the row is its transport command, whose bytes on its own bus are the frame. -/
theorem wireFrameRowsPutTheirFrame : Obligations.WireFrameRowsPutTheirFrame := by
  intro s reg data inb
  refine ⟨fun hk hpos hmax hn hl => ⟨?_, ?_, ?_, ?_, ?_, ?_⟩, fun hk hpos hmax => ⟨?_, ?_⟩⟩
  · intro hreg
    rw [exec_spiAgWrite hk hreg hpos hmax]
    exact transportWrite_serial hk (Ending.refusal?_ag_none (fun _ => hreg) hpos hmax) hn hl
      (spiWriteOut_ag hreg data)
  · intro hreg
    rw [exec_spiAgRead hk hreg hpos hmax]
    exact transportRead_serial hk (Ending.refusal?_ag_none (fun _ => hreg) hpos hmax) hn hl
      (spiReadOut_ag hreg data.length)
  · rintro hreg - b rfl
    rw [exec_spiMWrite1 hk hreg hmax]
    exact transportWrite_serial hk (refusal?_m_none hk hreg hpos hmax) hn hl
      (spiWriteOut_m_single hreg b)
  · intro hreg hlen
    rw [exec_spiMWriteB hk hreg hlen hmax]
    exact transportWrite_serial hk (refusal?_m_none hk hreg hpos hmax) hn hl
      (spiWriteOut_m_burst hreg hlen)
  · intro hreg hone
    rw [hone] at hpos hmax hl
    rw [exec_spiMRead1 hk hreg hmax]
    exact transportRead_serial hk (refusal?_m_none hk hreg hpos hmax) hn hl
      (spiReadOut_m_single hreg)
  · intro hreg hlen
    rw [exec_spiMReadB hk hreg hlen hmax]
    exact transportRead_serial hk (refusal?_m_none hk hreg hpos hmax) hn hl
      (spiReadOut_m_burst hreg hlen)
  · intro hn
    have hr := Ending.refusal?_ag_none (c := s.cfg) (reg := reg) (by simp [hk]) hpos hmax
    rw [exec_i2cAgPtr_write hk hpos hmax, ← writeEvents_addressed hk .ag reg data inb]
    exact transportWrite_ok hr hn (by simp [hk])
  · intro hn
    have hr := Ending.refusal?_ag_none (c := s.cfg) (reg := reg) (by simp [hk]) hpos hmax
    have hread := transportRead_ok (junk := 0) hr (by rw [hn, received_addressed hk])
    rw [received_addressed hk, readEvents_addressed hk] at hread
    exact (exec_i2cAgPtr_read hk hpos hmax).trans hread

end Sys2Proof.OnWire

/-!
PROOF. Operations whose answer is a failure or has another length (40_transport.md R112 to R127,
43_driver_facade.md R270): one whole operation on the bus, and the `BusError` of its register.
-/

namespace Sys2Proof.BadAnswer

open Sys2Proof.Machine

/-! ### The judgement of the answer (R117, R125) -/

@[simp] theorem ansOf_drawOf (a : Ans (List Byte)) : ansOf (drawOf a) = some a := by
  cases a <;> rfl

/-- The answer `a` is no success of a write of `n` bytes. On the addressed bus only a failure is none:
there is no length to see (R121). -/
def WriteBad (c : Cfg) (n : Nat) (a : Ans (List Byte)) : Prop :=
  ∀ inb, a = .ok inb → c.kind = .serial ∧ inb.length ≠ n + 1

/-- The answer `a` is no success of a read of `n` bytes. -/
def ReadBad (c : Cfg) (n : Nat) (a : Ans (List Byte)) : Prop :=
  ∀ inb, a = .ok inb → inb.length ≠ if c.kind = .serial then n + 1 else n

section
variable {s : State} {d : Dev} {reg : Byte} {n : Nat} {a : Ans (List Byte)}

theorem writeEnd_bad {c : Cfg} (h : WriteBad c n a) :
    writeEnd c d reg n a = .err (.busError .write d reg) := by
  cases a with
  | fail => rfl
  | ok inb =>
    obtain ⟨hk, hl⟩ := h inb rfl
    simp [writeEnd, writeOk, hk, hl]

theorem readEnd_bad {c : Cfg} (h : ReadBad c n a) :
    readEnd c d reg n a = .err (.busError .read d reg) := by
  cases a with
  | fail => rfl
  | ok inb =>
    have hl := h inb rfl
    cases hk : c.kind with
    | serial =>
      have hlen : inb.length ≠ n + 1 := by simpa [hk] using hl
      simp [readEnd, readOk, hk, hlen]
    | addressed =>
      have hlen : inb.length ≠ n := by simpa [hk] using hl
      simp [readEnd, readOk, hk, hlen]

/-! ### The operations -/

theorem memWrite_bad {data : List Byte} (hd : unimplemented s.cfg.kind d = false)
    (hn : s.nextDraw = drawOf a) (h : WriteBad s.cfg data.length a) :
    memWrite d reg data s = (.err (.busError .write d reg),
      s.busDone d 1 (writeEvents s.cfg d reg data a)) := by
  rw [memWrite_answer hd (by rw [hn, ansOf_drawOf]), writeEnd_bad h]

theorem memRead_bad (hd : unimplemented s.cfg.kind d = false) (hn : s.nextDraw = drawOf a)
    (h : ReadBad s.cfg n a) :
    memRead d reg n s = (.err (.busError .read d reg),
      s.busDone d 1 (readEvents s.cfg d reg n a)) := by
  rw [memRead_answer hd (by rw [hn, ansOf_drawOf]), readEnd_bad h]

theorem readSample_bad {α : Type} {sample : List Byte → Option α}
    (hd : unimplemented s.cfg.kind d = false) (hn : s.nextDraw = drawOf a) (h : ReadBad s.cfg n a) :
    readSample d reg n sample s = (.err (.busError .read d reg),
      s.busDone d 1 (readEvents s.cfg d reg n a)) := by
  simp only [readSample, memRead_bad hd hn h]

/-- A command whose operation failed answers the error after the bus part, whatever it does with a
value. -/
theorem finish_err_busDone {α : Type} (f : α → Value) (e : Err) (m : Nat) (es : List BusEvent) :
    finish f (.err e, s.busDone d m es) = .next (s.afterBus d m es (.err e)) := rfl

/-! ### The transport commands (R129 to R133) -/

theorem transportWrite_bad {data : List Byte} (hr : refusal? s.cfg d reg data.length = none)
    (hn : s.nextDraw = drawOf a) (h : WriteBad s.cfg data.length a) :
    transportWrite d reg data s =
      .next (s.afterBus d 1 (writeEvents s.cfg d reg data a) (.err (.busError .write d reg))) := by
  rw [OnWire.transportWrite_admitted hr,
    memWrite_bad (OnWire.unimplemented_of_refusal?_none hr) hn h, finish_err_busDone]

theorem transportRead_bad (hr : refusal? s.cfg d reg n = none) (hn : s.nextDraw = drawOf a)
    (h : ReadBad s.cfg n a) :
    transportRead d reg n s =
      .next (s.afterBus d 1 (readEvents s.cfg d reg n a) (.err (.busError .read d reg))) := by
  rw [OnWire.transportRead_admitted hr,
    memRead_bad (OnWire.unimplemented_of_refusal?_none hr) hn h, finish_err_busDone]

end

/-- Settles O27: the operands are admitted, and the one operation of the command is judged a failure. -/
theorem transportFailureIsBusError : Obligations.TransportFailureIsBusError := by
  intro s reg a hn
  refine ⟨fun data hpos hmax hbad => ⟨fun hreg => ?_, fun hk hreg => ?_⟩,
    fun n hpos hmax hbad => ⟨fun hreg => ?_, fun hk hreg => ?_⟩⟩
  · exact transportWrite_bad (Ending.refusal?_ag_none hreg hpos hmax) hn hbad
  · exact transportWrite_bad (OnWire.refusal?_m_none hk hreg hpos hmax) hn hbad
  · exact transportRead_bad (Ending.refusal?_ag_none hreg hpos hmax) hn hbad
  · exact transportRead_bad (OnWire.refusal?_m_none hk hreg hpos hmax) hn hbad

/-! ### The reads of the facade (R270) -/

theorem readPhys_enabled {s : State} {k : Sensor} {r : Settings}
    (hk : s.cfg.kind = .addressed → k ≠ .m) (hl : s.life k = .enabled)
    (hr : s.settings k = some r) :
    readPhys k s = finish (fun raw => .phys3 (phys3 raw (sensOf s.cfg.sens r))) (readRaw3 k s) := by
  simp [readPhys, FullAnswer.unimplemented_devOf hk, hl, hr]

/-- Settles O42: each of the four reads is its one burst and then a use of the sample, and a burst judged
a failure has none. -/
theorem failedReadGivesNoSample : Obligations.FailedReadGivesNoSample := by
  intro s a hn
  refine ⟨fun k r hk hl hr hbad => ?_, fun hbad => ?_⟩
  · intro reg t
    have hreg : dataReg s.cfg.regmap k = reg := by cases k <;> rfl
    have hburst : readRaw3 k s = (.err (.busError .read (devOf k) reg),
        s.busDone (devOf k) 1 (readEvents s.cfg (devOf k) reg 6 a)) := by
      rw [readRaw3, hreg]
      exact readSample_bad (FullAnswer.unimplemented_devOf hk) hn hbad
    rw [exec_rdInstr, exec_rdrawInstr, readPhys_enabled hk hl hr, FullAnswer.readRaw_enabled hk hl,
      hburst]
    exact ⟨finish_err_busDone .., finish_err_busDone ..⟩
  · have hburst : readTempRaw s = (.err (.busError .read .ag s.cfg.regmap.outTempL),
        s.busDone .ag 1 (readEvents s.cfg .ag s.cfg.regmap.outTempL 2 a)) :=
      readSample_bad (Ending.unimplemented_ag _) hn hbad
    rw [FullAnswer.exec_rdT, FullAnswer.exec_rdrawT, hburst]
    exact ⟨finish_err_busDone .., finish_err_busDone ..⟩

end Sys2Proof.BadAnswer

/-!
PROOF. The magnetometer on the addressed bus (40_transport.md R120, 60_exceptions.md R317, R318): every
command for it is refused before it looks at the lifecycle or the bus.
-/

namespace Sys2Proof.Unimplemented

open Sys2Proof.Machine

/-! ### The facade: the refusal is its first check (R261) -/

section
variable {s : State} {k : Sensor}

theorem configure_unimplemented {r : Settings}
    (h : unimplemented s.cfg.kind (devOf (sensorOf r)) = true) :
    configure r s = .next (s.refuse .unimplemented) := if_pos h

theorem enable_unimplemented (h : unimplemented s.cfg.kind (devOf k) = true) :
    enable k s = .next (s.refuse .unimplemented) := if_pos h

theorem readPhys_unimplemented (h : unimplemented s.cfg.kind (devOf k) = true) :
    readPhys k s = .next (s.refuse .unimplemented) := if_pos h

theorem readRaw_unimplemented (h : unimplemented s.cfg.kind (devOf k) = true) :
    readRaw k s = .next (s.refuse .unimplemented) := if_pos h

end

/-! ### The transport commands: with the count in range, the refusal is the last check left (R129) -/

theorem refusal?_unimplemented {c : Cfg} {reg : Byte} {n : Nat} (hk : c.kind = .addressed)
    (hpos : 1 ≤ n) (hmax : n ≤ c.maxBurst) : refusal? c .m reg n = some .unimplemented := by
  have hrange : ¬(n = 0 ∨ c.maxBurst < n) := by omega
  simp [refusal?, hrange, reachable, unimplemented, hk]

/-- Settles O29, command by command. -/
theorem magnetometerOnAddressedBusIsRefused : Obligations.MagnetometerOnAddressedBusIsRefused := by
  intro s hk i hi
  have hm : unimplemented s.cfg.kind .m = true := by rw [hk]; rfl
  obtain ⟨m, rfl⟩ | rfl | rfl | rfl | ⟨reg, data, rfl, hpos, hmax⟩ | ⟨reg, n, rfl, hpos, hmax⟩ := hi
  · exact configure_unimplemented (r := .m m) hm
  · exact enable_unimplemented (k := .m) hm
  · exact readPhys_unimplemented (k := .m) hm
  · exact readRaw_unimplemented (k := .m) hm
  · exact OnWire.transportWrite_refused (refusal?_unimplemented hk hpos hmax)
  · exact OnWire.transportRead_refused (refusal?_unimplemented hk hpos hmax)

end Sys2Proof.Unimplemented

/-!
PROOF. The Settings Model (41_settings_encoder.md): each register byte is the sum of its fields' codes
at their places, so a record is read back from its bytes field by field (R188).
-/

namespace Sys2Proof.Encoding

open Sys2Proof.Machine

/-! ### Field codes: each fits its field, and the value at its place in the inverse's list is the value
itself (R155 to R158, R164 to R168, R176 to R180) -/

theorem bitCode_toNat (b : Bool) : (bitCode b).toNat = b.toNat := by cases b <;> rfl

theorem accelOdrCode_lt (v : AccelOdr) : (accelOdrCode v).toNat < 8 := by cases v <;> decide
theorem accelScaleCode_lt (v : AccelScale) : (accelScaleCode v).toNat < 4 := by cases v <;> decide
theorem accelBwSelectCode_lt (v : AccelBwSelect) : (accelBwSelectCode v).toNat < 2 := by
  cases v <;> decide
theorem accelBwCode_lt (v : AccelBw) : (accelBwCode v).toNat < 4 := by cases v <;> decide
theorem accelHrCutoffCode_lt (v : AccelHrCutoff) : (accelHrCutoffCode v).toNat < 4 := by
  cases v <;> decide
theorem gyroOdrCode_lt (v : GyroOdr) : (gyroOdrCode v).toNat < 8 := by cases v <;> decide
theorem gyroScaleCode_lt (v : GyroScale) : (gyroScaleCode v).toNat < 4 := by cases v <;> decide
theorem gyroBwCode_lt (v : GyroBw) : (gyroBwCode v).toNat < 4 := by cases v <;> decide
theorem gyroHpcfCode_lt (v : GyroHpcf) : (gyroHpcfCode v).toNat < 16 := by cases v <;> decide
theorem gyroPathCode_lt (v : GyroPath) : (gyroPathCode v).toNat < 4 := by cases v <;> decide
theorem magOdrCode_lt (v : MagOdr) : (magOdrCode v).toNat < 8 := by cases v <;> decide
theorem magPerfCode_lt (v : MagPerf) : (magPerfCode v).toNat < 4 := by cases v <;> decide
theorem magScaleCode_lt (v : MagScale) : (magScaleCode v).toNat < 4 := by cases v <;> decide
theorem magModeCode_lt (v : MagMode) : (magModeCode v).toNat < 4 := by cases v <;> decide

@[simp] theorem pick_accelOdrCode (v : AccelOdr) :
    pick [some .powerDown, some .hz10, some .hz50, some .hz119, some .hz238, some .hz476,
      some .hz952, none] (accelOdrCode v).toNat = some v := by cases v <;> rfl
@[simp] theorem pick_accelScaleCode (v : AccelScale) :
    pick [some .g2, some .g16, some .g4, some .g8] (accelScaleCode v).toNat = some v := by
  cases v <;> rfl
@[simp] theorem pick_accelBwSelectCode (v : AccelBwSelect) :
    pick [some .byOdr, some .byBwXl] (accelBwSelectCode v).toNat = some v := by cases v <;> rfl
@[simp] theorem pick_accelBwCode (v : AccelBw) :
    pick [some .hz408, some .hz211, some .hz105, some .hz50] (accelBwCode v).toNat = some v := by
  cases v <;> rfl
@[simp] theorem pick_accelHrCutoffCode (v : AccelHrCutoff) :
    pick [some .odrDiv50, some .odrDiv100, some .odrDiv9, some .odrDiv400]
      (accelHrCutoffCode v).toNat = some v := by cases v <;> rfl
@[simp] theorem pick_gyroOdrCode (v : GyroOdr) :
    pick [some .powerDown, some .hz14_9, some .hz59_5, some .hz119, some .hz238, some .hz476,
      some .hz952, none] (gyroOdrCode v).toNat = some v := by cases v <;> rfl
@[simp] theorem pick_gyroScaleCode (v : GyroScale) :
    pick [some .dps245, some .dps500, none, some .dps2000] (gyroScaleCode v).toNat = some v := by
  cases v <;> rfl
@[simp] theorem pick_gyroBwCode (v : GyroBw) :
    pick [some .bw0, some .bw1, some .bw2, some .bw3] (gyroBwCode v).toNat = some v := by
  cases v <;> rfl
@[simp] theorem pick_gyroHpcfCode (v : GyroHpcf) :
    pick [some .c0, some .c1, some .c2, some .c3, some .c4, some .c5, some .c6, some .c7, some .c8,
      some .c9] (gyroHpcfCode v).toNat = some v := by cases v <;> rfl
@[simp] theorem gyroPathOf_code (v : GyroPath) : gyroPathOf (gyroPathCode v).toNat = some v := by
  cases v <;> rfl
@[simp] theorem pick_magOdrCode (v : MagOdr) :
    pick [some .hz0_625, some .hz1_25, some .hz2_5, some .hz5, some .hz10, some .hz20, some .hz40,
      some .hz80] (magOdrCode v).toNat = some v := by cases v <;> rfl
@[simp] theorem magPerfOf_code (v : MagPerf) : magPerfOf (magPerfCode v).toNat = some v := by
  cases v <;> rfl
@[simp] theorem pick_magScaleCode (v : MagScale) :
    pick [some .g4, some .g8, some .g12, some .g16] (magScaleCode v).toNat = some v := by
  cases v <;> rfl
@[simp] theorem pick_magModeCode (v : MagMode) :
    pick [some .continuous, some .single, none, some .powerDown] (magModeCode v).toNat = some v := by
  cases v <;> rfl

/-! ### Fields of a byte -/

theorem shiftLeft_eq_ofNat (c : Byte) (i : Nat) : c <<< i = BitVec.ofNat 8 (2 ^ i * c.toNat) := by
  apply BitVec.eq_of_toNat_eq
  rw [BitVec.toNat_shiftLeft, BitVec.toNat_ofNat, Nat.shiftLeft_eq, Nat.mul_comm]

/-- Fields that do not overlap are added: one is clear below bit `i`, and the other stands there. -/
theorem ofNat_or_ofNat {m n : Nat} (i : Nat) (hm : m % 2 ^ i = 0) (hn : n < 2 ^ i) :
    BitVec.ofNat 8 m ||| BitVec.ofNat 8 n = BitVec.ofNat 8 (m + n) := by
  obtain ⟨k, rfl⟩ := Nat.dvd_of_mod_eq_zero hm
  rw [← BitVec.ofNat_or, Nat.two_pow_add_eq_or_of_lt hn]

theorem ofNat_or {m : Nat} {c : Byte} (i : Nat) (hm : m % 2 ^ i = 0) (hc : c.toNat < 2 ^ i) :
    BitVec.ofNat 8 m ||| c = BitVec.ofNat 8 (m + c.toNat) := by
  rw [← ofNat_or_ofNat i hm hc, BitVec.ofNat_toNat, BitVec.setWidth_eq]

theorem bitAt_eq_fieldOf (b : Byte) (i : Nat) : bitAt b i = decide (fieldOf b i 1 = 1) := by
  rw [bitAt, BitVec.getLsbD, Nat.testBit_eq_decide_div_mod_eq, fieldOf, pow_one]

theorem bitAt_of_fieldOf {b : Byte} {i : Nat} {v : Bool} (h : fieldOf b i 1 = v.toNat) :
    bitAt b i = v := by
  rw [bitAt_eq_fieldOf, h]; cases v <;> rfl

/-! ### The accelerometer (R159 to R162) -/

section
variable (a : AccelSettings)

theorem accelCodes_lt :
    (accelOdrCode a.odr).toNat < 8 ∧ (accelScaleCode a.scale).toNat < 4 ∧
    (accelBwSelectCode a.bwSelect).toNat < 2 ∧ (accelBwCode a.bandwidth).toNat < 4 ∧
    (accelHrCutoffCode a.hrCutoff).toNat < 4 ∧ a.highRes.toNat < 2 ∧ a.enableX.toNat < 2 ∧
    a.enableY.toNat < 2 ∧ a.enableZ.toNat < 2 :=
  ⟨accelOdrCode_lt _, accelScaleCode_lt _, accelBwSelectCode_lt _, accelBwCode_lt _,
    accelHrCutoffCode_lt _, Bool.toNat_lt _, Bool.toNat_lt _, Bool.toNat_lt _, Bool.toNat_lt _⟩

theorem ctrl6Xl_eq : ctrl6Xl a = BitVec.ofNat 8 (32 * (accelOdrCode a.odr).toNat +
    8 * (accelScaleCode a.scale).toNat + 4 * (accelBwSelectCode a.bwSelect).toNat +
    (accelBwCode a.bandwidth).toNat) := by
  have hlt := accelCodes_lt a
  simp only [ctrl6Xl, shiftLeft_eq_ofNat, Nat.reducePow]
  rw [ofNat_or_ofNat 5, ofNat_or_ofNat 3, ofNat_or 2] <;> omega

theorem ctrl7Xl_eq : ctrl7Xl a = BitVec.ofNat 8 (128 * a.highRes.toNat +
    32 * (accelHrCutoffCode a.hrCutoff).toNat) := by
  have hlt := accelCodes_lt a
  simp only [ctrl7Xl, shiftLeft_eq_ofNat, bitCode_toNat, Nat.reducePow]
  rw [ofNat_or_ofNat 7] <;> omega

theorem ctrl5Xl_eq : ctrl5Xl a = BitVec.ofNat 8 (32 * a.enableZ.toNat + 16 * a.enableY.toNat +
    8 * a.enableX.toNat) := by
  have hlt := accelCodes_lt a
  simp only [ctrl5Xl, shiftLeft_eq_ofNat, bitCode_toNat, Nat.reducePow]
  rw [ofNat_or_ofNat 5, ofNat_or_ofNat 4] <;> omega

theorem ctrl6Xl_fields :
    fieldOf (ctrl6Xl a) 5 3 = (accelOdrCode a.odr).toNat ∧
    fieldOf (ctrl6Xl a) 3 2 = (accelScaleCode a.scale).toNat ∧
    fieldOf (ctrl6Xl a) 2 1 = (accelBwSelectCode a.bwSelect).toNat ∧
    fieldOf (ctrl6Xl a) 0 2 = (accelBwCode a.bandwidth).toNat := by
  have hlt := accelCodes_lt a
  simp only [ctrl6Xl_eq, fieldOf, BitVec.toNat_ofNat]
  omega

theorem ctrl7Xl_fields :
    fieldOf (ctrl7Xl a) 7 1 = a.highRes.toNat ∧
    fieldOf (ctrl7Xl a) 5 2 = (accelHrCutoffCode a.hrCutoff).toNat := by
  have hlt := accelCodes_lt a
  simp only [ctrl7Xl_eq, fieldOf, BitVec.toNat_ofNat]
  omega

theorem ctrl5Xl_fields :
    fieldOf (ctrl5Xl a) 5 1 = a.enableZ.toNat ∧ fieldOf (ctrl5Xl a) 4 1 = a.enableY.toNat ∧
    fieldOf (ctrl5Xl a) 3 1 = a.enableX.toNat := by
  have hlt := accelCodes_lt a
  simp only [ctrl5Xl_eq, fieldOf, BitVec.toNat_ofNat]
  omega

theorem accelOfBytes_ctrl : accelOfBytes (ctrl6Xl a) (ctrl7Xl a) (ctrl5Xl a) = some a := by
  obtain ⟨hodr, hscale, hsel, hbw⟩ := ctrl6Xl_fields a
  obtain ⟨hhr, hcut⟩ := ctrl7Xl_fields a
  obtain ⟨hz, hy, hx⟩ := ctrl5Xl_fields a
  simp [accelOfBytes, hodr, hscale, hsel, hbw, hcut, bitAt_of_fieldOf hhr, bitAt_of_fieldOf hz,
    bitAt_of_fieldOf hy, bitAt_of_fieldOf hx]

end

/-! ### The gyroscope (R170 to R174) -/

section
variable (g : GyroSettings)

theorem gyroCodes_lt :
    (gyroOdrCode g.odr).toNat < 8 ∧ (gyroScaleCode g.scale).toNat < 4 ∧
    (gyroBwCode g.bandwidth).toNat < 4 ∧ (gyroPathCode g.intSel).toNat < 4 ∧
    (gyroPathCode g.outSel).toNat < 4 ∧ (gyroHpcfCode g.hpfCutoff).toNat < 16 ∧
    g.lowPower.toNat < 2 ∧ g.hpfEnable.toNat < 2 ∧ g.enableX.toNat < 2 ∧ g.enableY.toNat < 2 ∧
    g.enableZ.toNat < 2 :=
  ⟨gyroOdrCode_lt _, gyroScaleCode_lt _, gyroBwCode_lt _, gyroPathCode_lt _, gyroPathCode_lt _,
    gyroHpcfCode_lt _, Bool.toNat_lt _, Bool.toNat_lt _, Bool.toNat_lt _, Bool.toNat_lt _,
    Bool.toNat_lt _⟩

theorem ctrl1G_eq : ctrl1G g = BitVec.ofNat 8 (32 * (gyroOdrCode g.odr).toNat +
    8 * (gyroScaleCode g.scale).toNat + (gyroBwCode g.bandwidth).toNat) := by
  have hlt := gyroCodes_lt g
  simp only [ctrl1G, shiftLeft_eq_ofNat, Nat.reducePow]
  rw [ofNat_or_ofNat 5, ofNat_or 3] <;> omega

theorem ctrl2G_eq : ctrl2G g = BitVec.ofNat 8 (4 * (gyroPathCode g.intSel).toNat +
    (gyroPathCode g.outSel).toNat) := by
  have hlt := gyroCodes_lt g
  simp only [ctrl2G, shiftLeft_eq_ofNat, Nat.reducePow]
  rw [ofNat_or 2] <;> omega

theorem ctrl3G_eq : ctrl3G g = BitVec.ofNat 8 (128 * g.lowPower.toNat + 64 * g.hpfEnable.toNat +
    (gyroHpcfCode g.hpfCutoff).toNat) := by
  have hlt := gyroCodes_lt g
  simp only [ctrl3G, shiftLeft_eq_ofNat, bitCode_toNat, Nat.reducePow]
  rw [ofNat_or_ofNat 7, ofNat_or 6] <;> omega

theorem ctrl4_eq : ctrl4 g = BitVec.ofNat 8 (32 * g.enableZ.toNat + 16 * g.enableY.toNat +
    8 * g.enableX.toNat) := by
  have hlt := gyroCodes_lt g
  simp only [ctrl4, shiftLeft_eq_ofNat, bitCode_toNat, Nat.reducePow]
  rw [ofNat_or_ofNat 5, ofNat_or_ofNat 4] <;> omega

theorem ctrl1G_fields :
    fieldOf (ctrl1G g) 5 3 = (gyroOdrCode g.odr).toNat ∧
    fieldOf (ctrl1G g) 3 2 = (gyroScaleCode g.scale).toNat ∧
    fieldOf (ctrl1G g) 0 2 = (gyroBwCode g.bandwidth).toNat := by
  have hlt := gyroCodes_lt g
  simp only [ctrl1G_eq, fieldOf, BitVec.toNat_ofNat]
  omega

theorem ctrl2G_fields :
    fieldOf (ctrl2G g) 2 2 = (gyroPathCode g.intSel).toNat ∧
    fieldOf (ctrl2G g) 0 2 = (gyroPathCode g.outSel).toNat := by
  have hlt := gyroCodes_lt g
  simp only [ctrl2G_eq, fieldOf, BitVec.toNat_ofNat]
  omega

theorem ctrl3G_fields :
    fieldOf (ctrl3G g) 7 1 = g.lowPower.toNat ∧ fieldOf (ctrl3G g) 6 1 = g.hpfEnable.toNat ∧
    fieldOf (ctrl3G g) 0 4 = (gyroHpcfCode g.hpfCutoff).toNat := by
  have hlt := gyroCodes_lt g
  simp only [ctrl3G_eq, fieldOf, BitVec.toNat_ofNat]
  omega

theorem ctrl4_fields :
    fieldOf (ctrl4 g) 5 1 = g.enableZ.toNat ∧ fieldOf (ctrl4 g) 4 1 = g.enableY.toNat ∧
    fieldOf (ctrl4 g) 3 1 = g.enableX.toNat := by
  have hlt := gyroCodes_lt g
  simp only [ctrl4_eq, fieldOf, BitVec.toNat_ofNat]
  omega

theorem gyroOfBytes_ctrl : gyroOfBytes (ctrl1G g) (ctrl2G g) (ctrl3G g) (ctrl4 g) = some g := by
  obtain ⟨hodr, hscale, hbw⟩ := ctrl1G_fields g
  obtain ⟨hint, hout⟩ := ctrl2G_fields g
  obtain ⟨hlp, hhpf, hcut⟩ := ctrl3G_fields g
  obtain ⟨hz, hy, hx⟩ := ctrl4_fields g
  simp [gyroOfBytes, hodr, hscale, hbw, hint, hout, hcut, bitAt_of_fieldOf hlp,
    bitAt_of_fieldOf hhpf, bitAt_of_fieldOf hz, bitAt_of_fieldOf hy, bitAt_of_fieldOf hx]

end

/-! ### The magnetometer (R182 to R186) -/

section
variable (c : Cfg) (m : MagSettings)

theorem magCodes_lt :
    (magOdrCode m.odr).toNat < 8 ∧ (magPerfCode m.xyMode).toNat < 4 ∧
    (magPerfCode m.zMode).toNat < 4 ∧ (magScaleCode m.scale).toNat < 4 ∧
    (magModeCode m.mode).toNat < 4 ∧ m.fastOdr.toNat < 2 ∧ m.lowPower.toNat < 2 :=
  ⟨magOdrCode_lt _, magPerfCode_lt _, magPerfCode_lt _, magScaleCode_lt _, magModeCode_lt _,
    Bool.toNat_lt _, Bool.toNat_lt _⟩

theorem ctrl1M_eq : ctrl1M m = BitVec.ofNat 8 (32 * (magPerfCode m.xyMode).toNat +
    4 * (magOdrCode m.odr).toNat + 2 * m.fastOdr.toNat) := by
  have hlt := magCodes_lt m
  simp only [ctrl1M, shiftLeft_eq_ofNat, bitCode_toNat, Nat.reducePow]
  rw [ofNat_or_ofNat 5, ofNat_or_ofNat 2] <;> omega

theorem ctrl2M_eq : ctrl2M m = BitVec.ofNat 8 (32 * (magScaleCode m.scale).toNat) :=
  shiftLeft_eq_ofNat ..

theorem ctrl4M_eq : ctrl4M m = BitVec.ofNat 8 (4 * (magPerfCode m.zMode).toNat) :=
  shiftLeft_eq_ofNat ..

theorem ctrl3M_eq : ctrl3M c m = BitVec.ofNat 8 (32 * m.lowPower.toNat + 4 * c.magSim.toNat +
    (magModeCode m.mode).toNat) := by
  have hlt := magCodes_lt m
  have hsim := c.magSim.isLt
  have hwiden : (c.magSim.setWidth 8).toNat = c.magSim.toNat :=
    BitVec.toNat_setWidth_of_le (by decide)
  simp only [ctrl3M, shiftLeft_eq_ofNat, bitCode_toNat, hwiden, Nat.reducePow]
  rw [ofNat_or_ofNat 5, ofNat_or 2] <;> omega

theorem ctrl1M_fields :
    fieldOf (ctrl1M m) 5 2 = (magPerfCode m.xyMode).toNat ∧
    fieldOf (ctrl1M m) 2 3 = (magOdrCode m.odr).toNat ∧
    fieldOf (ctrl1M m) 1 1 = m.fastOdr.toNat := by
  have hlt := magCodes_lt m
  simp only [ctrl1M_eq, fieldOf, BitVec.toNat_ofNat]
  omega

theorem ctrl2M_field : fieldOf (ctrl2M m) 5 2 = (magScaleCode m.scale).toNat := by
  have hlt := magCodes_lt m
  simp only [ctrl2M_eq, fieldOf, BitVec.toNat_ofNat]
  omega

theorem ctrl4M_field : fieldOf (ctrl4M m) 2 2 = (magPerfCode m.zMode).toNat := by
  have hlt := magCodes_lt m
  simp only [ctrl4M_eq, fieldOf, BitVec.toNat_ofNat]
  omega

theorem ctrl3M_fields :
    fieldOf (ctrl3M c m) 5 1 = m.lowPower.toNat ∧
    fieldOf (ctrl3M c m) 0 2 = (magModeCode m.mode).toNat := by
  have hlt := magCodes_lt m
  have hsim := c.magSim.isLt
  simp only [ctrl3M_eq, fieldOf, BitVec.toNat_ofNat]
  omega

theorem magOfBytes_ctrl : magOfBytes (ctrl1M m) (ctrl2M m) (ctrl4M m) (ctrl3M c m) = some m := by
  obtain ⟨hxy, hodr, hfast⟩ := ctrl1M_fields m
  obtain ⟨hlp, hmode⟩ := ctrl3M_fields c m
  simp [magOfBytes, hxy, hodr, ctrl2M_field, ctrl4M_field, hmode, bitAt_of_fieldOf hfast,
    bitAt_of_fieldOf hlp]

end

/-! ### The register list -/

theorem ofRegisterBits_toRegisterBits (c : Cfg) (r : Settings) :
    ofRegisterBits (sensorOf r) (toRegisterBits c r) = some r := by
  cases r with
  | xl a => exact congrArg (Option.map Settings.xl) (accelOfBytes_ctrl a)
  | g g => exact congrArg (Option.map Settings.g) (gyroOfBytes_ctrl g)
  | m m => exact congrArg (Option.map Settings.m) (magOfBytes_ctrl c m)

/-- The registers of a list, which are the sensor's whatever the record says. -/
def listedRegs (map : RegMap) : Sensor → List Byte
  | .xl => [map.ctrlReg6Xl, map.ctrlReg7Xl, map.ctrlReg5Xl]
  | .g => [map.ctrlReg1G, map.ctrlReg2G, map.ctrlReg3G, map.ctrlReg4]
  | .m => [map.ctrlReg1M, map.ctrlReg2M, map.ctrlReg4M, map.ctrlReg3M]

theorem toRegisterBits_map_reg (c : Cfg) (r : Settings) :
    (toRegisterBits c r).map (·.reg) = listedRegs c.regmap (sensorOf r) := by
  cases r <;> rfl

theorem listedRegs_default_nodup (k : Sensor) : (listedRegs defaultRegMap k).Nodup := by
  cases k <;> decide

theorem exec_encXl (a : AccelSettings) (s : State) : exec (.encXl a) s =
    .next { s with reply := some (.ok (.entries (accelRegs s.cfg a))) } := rfl

theorem exec_encG (g : GyroSettings) (s : State) : exec (.encG g) s =
    .next { s with reply := some (.ok (.entries (gyroRegs s.cfg g))) } := rfl

theorem exec_encM (m : MagSettings) (s : State) : exec (.encM m) s =
    .next { s with reply := some (.ok (.entries (magRegs s.cfg m))) } := rfl

/-! ### The obligations -/

/-- Settles O12: every field is read back from its place, and a map with a left inverse is injective. -/
theorem registerListDecodesToRecord : Obligations.RegisterListDecodesToRecord := by
  refine ⟨ofRegisterBits_toRegisterBits, fun c r r' hk he => Option.some.inj ?_⟩
  rw [← ofRegisterBits_toRegisterBits c r, ← ofRegisterBits_toRegisterBits c r', hk, he]

/-- Settles O9: the command answers the register list, and each of its bytes is the sum of its fields. -/
theorem encXlAnswersRegisterBytes : Obligations.EncXlAnswersRegisterBytes := by
  intro a s
  rw [exec_encXl, accelRegs, ctrl6Xl_eq, ctrl7Xl_eq, ctrl5Xl_eq]

/-- Settles O10: the four bytes of the list are the sums of their fields, CTRL_REG4 last. -/
theorem encGAnswersRegisterBytes : Obligations.EncGAnswersRegisterBytes := by
  intro g s
  rw [exec_encG, gyroRegs, ctrl1G_eq, ctrl2G_eq, ctrl3G_eq, ctrl4_eq]

/-- Settles O11: the four bytes of the list are the sums of their fields, CTRL_REG3_M last with
`cfg.mag_sim` between `low_power` and `mode`. -/
theorem encMAnswersRegisterBytes : Obligations.EncMAnswersRegisterBytes := by
  intro m s
  rw [exec_encM, magRegs, ctrl1M_eq, ctrl2M_eq, ctrl4M_eq, ctrl3M_eq]

/-- Settles O13: the one `Enable` entry is the last of each list, and the registers listed depend on the
sensor and the map only. -/
theorem controlEntriesComeBeforeEnable : Obligations.ControlEntriesComeBeforeEnable := by
  refine ⟨fun c r => ?_, fun c r hmap => ?_⟩
  · cases r with
    | xl a => exact ⟨(accelRegs c a).dropLast, ctrl5Xl a, rfl, by simp [accelRegs]⟩
    | g g => exact ⟨(gyroRegs c g).dropLast, ctrl4 g, rfl, by simp [gyroRegs]⟩
    | m m => exact ⟨(magRegs c m).dropLast, ctrl3M c m, rfl, by simp [magRegs]⟩
  · rw [toRegisterBits_map_reg, hmap]
    exact listedRegs_default_nodup _

/-- Settles O8: the fourteen tables are closed lists. -/
theorem fieldCodesByTable : Obligations.FieldCodesByTable := by
  unfold Obligations.FieldCodesByTable
  decide

/-- Settles O14: both buses have one register map and one `mag_sim`. -/
theorem defaultRecordsEncodeByTable : Obligations.DefaultRecordsEncodeByTable := by
  intro k
  cases k <;> decide

/-- Settles O43: each pure command is the end of a command with a value (D35), and nothing else is
pure. -/
theorem pureCommandsChangeOnlyTheReply : Obligations.PureCommandsChangeOnlyTheReply := by
  intro i s h
  cases i with
  | encXl _ | encG _ | encM _ | sensXl _ | sensG _ | sensM _ | convXl _ _ _ _ | convG _ _ _ _
  | convM _ _ _ _ | tconv _ => exact ⟨_, rfl⟩
  | _ => cases h

end Sys2Proof.Encoding

/-!
PROOF. Unit conversion with the default parameters (42_unit_conversion.md R223 to R236).

A rounded result is never past a binary32 value that its exact value is not past, and an exact value
that is itself a binary32 value is its own rounding. Both turn a bound on an exact product, quotient or
sum into one on the pattern, with no further look at `rnd`. Negation needs the bits: a sign flips one bit
of an operand, and rounding passes it on.
-/

namespace Sys2Proof.Conversion

open Sys2Proof.Machine Sys2Proof.Rounding

/-! ### The commands -/

theorem exec_sensXl (k : AccelScale) (s : State) : exec (.sensXl k) s =
    .next { s with reply := some (.ok (.phys (sensXl s.cfg.sens k))) } := rfl

theorem exec_sensG (k : GyroScale) (s : State) : exec (.sensG k) s =
    .next { s with reply := some (.ok (.phys (sensG s.cfg.sens k))) } := rfl

theorem exec_sensM (k : MagScale) (s : State) : exec (.sensM k) s =
    .next { s with reply := some (.ok (.phys (sensM s.cfg.sens k))) } := rfl

theorem exec_convXl (k : AccelScale) (x y z : I16) (s : State) : exec (.convXl k x y z) s =
    .next { s with reply := some (.ok (.phys3 (phys3 ⟨x, y, z⟩ (sensXl s.cfg.sens k)))) } := rfl

theorem exec_convG (k : GyroScale) (x y z : I16) (s : State) : exec (.convG k x y z) s =
    .next { s with reply := some (.ok (.phys3 (phys3 ⟨x, y, z⟩ (sensG s.cfg.sens k)))) } := rfl

theorem exec_convM (k : MagScale) (x y z : I16) (s : State) : exec (.convM k x y z) s =
    .next { s with reply := some (.ok (.phys3 (phys3 ⟨x, y, z⟩ (sensM s.cfg.sens k)))) } := rfl

theorem exec_tconv (raw : I16) (s : State) : exec (.tconv raw) s =
    .next { s with reply := some (.ok (.phys (temp s.cfg raw))) } := rfl

/-- Settles O20: the command answers its scale's entry, which the statement writes out. -/
theorem sensAnswersTableEntry : Obligations.SensAnswersTableEntry :=
  fun s => ⟨(exec_sensXl · s), (exec_sensG · s), (exec_sensM · s)⟩

/-- Settles O21: three products with the one entry of the scale. -/
theorem convMultipliesEachLane : Obligations.ConvMultipliesEachLane :=
  fun s x y z => ⟨(exec_convXl · x y z s), (exec_convG · x y z s), (exec_convM · x y z s)⟩

/-- Settles O22: `temp` is the quotient, then the sum. -/
theorem tconvDividesThenAdds : Obligations.TconvDividesThenAdds :=
  fun s raw => exec_tconv raw s

/-- Settles O38: in `Enabled` the command is its burst and one product per lane, with the entry of the stored
record's scale. -/
theorem readConvertsTheBurst : Obligations.ReadConvertsTheBurst := by
  intro s k r junk xl xh yl yh zl zh hk hl hr hn
  rw [exec_rdInstr, BadAnswer.readPhys_enabled hk hl hr, FullAnswer.readRaw3_received hk hn]
  exact FullAnswer.finish_busDone ..

/-! ### Values that a binary32 has -/

/-- Some binary32 is exactly `x`. -/
def Representable (x : ℚ) : Prop := ∃ b, fVal b = some x

/-- 24 bits of significand, at any exponent down to that of the subnormals. -/
theorem representable_int (n : ℤ) (e : ℤ) (hn : n.natAbs < 2 ^ 24) (he : -149 ≤ e)
    (hlt : |(n : ℚ) * 2 ^ e| < 2 ^ 128 - 2 ^ 103) : Representable (n * 2 ^ e) := by
  have hlog : n.natAbs.log2 < 24 := by
    rcases eq_or_ne n.natAbs 0 with h0 | h0
    · simp [h0]
    · exact (Nat.log2_lt h0).mpr hn
  have hstep : stepExp n.natAbs e ≤ e := max_le (by omega) he
  have hsgn : sgn (decide (n < 0)) * (n.natAbs * 2 ^ e) = n * 2 ^ e := by
    rw [← mul_assoc, sgn_mul_natAbs]
  rw [← hsgn, abs_sgn_mul] at hlt
  exact ⟨_, hsgn ▸ fVal_rnd_exact _ hstep ((le_abs_self _).trans_lt hlt)⟩

/-- Scaling a binary32 value up by a power of two keeps it one, below the overflow. -/
theorem Representable.mul_two_pow {x : ℚ} (h : Representable x) (k : ℕ)
    (hlt : |x * 2 ^ k| < 2 ^ 128 - 2 ^ 103) : Representable (x * 2 ^ k) := by
  obtain ⟨b, hb⟩ := h
  obtain ⟨neg, m, e, hv, rfl⟩ := fView_of_fVal hb
  obtain ⟨hm, he⟩ := fView_bounds hv
  obtain ⟨n, hn⟩ := exists_int_eq_sgn_mul neg m
  have heq : sgn neg * (m * 2 ^ e) * 2 ^ k = n * 2 ^ (e + k) := by
    rw [hn, zpow_add₀ two_ne_zero, zpow_natCast]
    push_cast
    ring
  have habs : n.natAbs = m := by
    have hq : |(n : ℚ)| = m := by rw [hn, abs_sgn_mul]; simp
    rw [← Int.cast_abs, ← Nat.cast_natAbs] at hq
    exact_mod_cast hq
  rw [heq] at hlt ⊢
  exact representable_int n _ (habs ▸ hm) (by omega) hlt

/-! ### Roundings and the values around them -/

section
variable {x v : ℚ} {r : F32} (h : IsRnd x r) (hv : fVal r = some v)
include h hv

theorem dist_le_of_isRnd {w : ℚ} (hw : Representable w) : |v - x| ≤ |w - x| := by
  obtain ⟨u, hu, hnear⟩ := h
  obtain ⟨y, hy⟩ := hw
  obtain rfl : u = v := Option.some.inj (hu.symm.trans hv)
  exact (hnear y w hy).1

/-- A rounding does not pass a binary32 value above the exact one. -/
theorem le_of_isRnd {w : ℚ} (hw : Representable w) (hxw : x ≤ w) : v ≤ w := by
  have hd := dist_le_of_isRnd h hv hw
  rw [abs_of_nonneg (sub_nonneg.mpr hxw)] at hd
  linarith [le_abs_self (v - x)]

/-- Nor one below it. -/
theorem ge_of_isRnd {w : ℚ} (hw : Representable w) (hwx : w ≤ x) : w ≤ v := by
  have hd := dist_le_of_isRnd h hv hw
  rw [abs_of_nonpos (sub_nonpos.mpr hwx)] at hd
  linarith [neg_abs_le (v - x)]

end

/-- A binary32 value is its own rounding. -/
theorem fVal_of_isRnd {x : ℚ} {r : F32} (h : IsRnd x r) (hx : Representable x) : fVal r = some x := by
  have ⟨v, hv, _⟩ := h
  rw [hv, le_antisymm (le_of_isRnd h hv hx le_rfl) (ge_of_isRnd h hv hx le_rfl)]

/-! ### The sign bit -/

/-- The other sign bit, every other bit kept. -/
def flipSign (b : F32) : F32 := b ^^^ 0x80000000

/-- A pattern is its sign and its lower 31 bits. -/
theorem exists_eq_fPack (b : F32) : ∃ neg mag, mag < 0x80000000 ∧ b = fPack neg mag := by
  have hb := b.isLt
  refine ⟨decide (0x80000000 ≤ b.toNat), b.toNat % 0x80000000, Nat.mod_lt _ (by norm_num),
    BitVec.eq_of_toNat_eq ?_⟩
  rw [fPack_toNat _ (Nat.mod_lt _ (by norm_num))]
  simp only [decide_eq_true_eq]
  split <;> omega

/-- The sign is bit 31, and the lower 31 bits leave that bit clear. -/
theorem flipSign_fPack_false {mag : ℕ} (h : mag < 0x80000000) :
    flipSign (fPack false mag) = fPack true mag := by
  refine BitVec.eq_of_getLsbD_eq fun i hi => ?_
  have hsign : (0x80000000 : F32) = BitVec.twoPow 32 31 := rfl
  rw [flipSign, BitVec.getLsbD_xor, hsign, BitVec.getLsbD_twoPow, BitVec.getLsbD, BitVec.getLsbD,
    fPack_toNat _ h, fPack_toNat _ h, if_neg Bool.false_ne_true, if_pos rfl, zero_add,
    show 0x80000000 = 2 ^ 31 from rfl]
  rcases Nat.lt_or_eq_of_le (Nat.le_of_lt_succ hi) with hlow | rfl
  · rw [Nat.testBit_two_pow_add_gt hlow]
    simp [hlow.ne']
  · rw [Nat.testBit_two_pow_add_eq]
    simp

theorem flipSign_flipSign (b : F32) : flipSign (flipSign b) = b := by
  simp [flipSign]

theorem flipSign_fPack (neg : Bool) {mag : ℕ} (h : mag < 0x80000000) :
    flipSign (fPack neg mag) = fPack (!neg) mag := by
  cases neg with
  | false => exact flipSign_fPack_false h
  | true => rw [← flipSign_fPack_false h, flipSign_flipSign]; rfl

/-- Only the sign of what a pattern stands for changes. -/
theorem fView_flipSign {b : F32} {neg : Bool} {m : ℕ} {e : ℤ} (h : fView b = .fin neg m e) :
    fView (flipSign b) = .fin (!neg) m e := by
  obtain ⟨s, mag, hmag, rfl⟩ := exists_eq_fPack b
  rw [flipSign_fPack s hmag]
  rw [fView, fPack_sign _ hmag, fPack_exp _ hmag, fPack_frac _ hmag] at h ⊢
  split_ifs at h ⊢ <;> cases h <;> rfl

/-- Rounding finds the lower 31 bits without looking at the sign. -/
theorem exists_rnd_eq_fPack (m : ℕ) (e : ℤ) :
    ∃ mag, mag < 0x80000000 ∧ ∀ neg, rnd neg m e = fPack neg mag := by
  by_cases hm : m = 0
  · exact ⟨0, by norm_num, fun _ => if_pos hm⟩
  by_cases hfin : (stepExp m e + 149).toNat * 0x800000 + rndSig m e < 0x7F800000
  · exact ⟨_, hfin.trans (by norm_num), fun neg => rnd_eq_fPack neg hm hfin⟩
  · exact ⟨0x7F800000, by norm_num, fun _ => (if_neg hm).trans (if_neg hfin)⟩

theorem rnd_not (neg : Bool) (m : ℕ) (e : ℤ) : rnd (!neg) m e = flipSign (rnd neg m e) := by
  obtain ⟨mag, hmag, hrnd⟩ := exists_rnd_eq_fPack m e
  rw [hrnd, hrnd, flipSign_fPack neg hmag]

theorem fmul_flipSign {a b : F32} {x y : ℚ} (ha : fVal a = some x) (hb : fVal b = some y) :
    fmul (flipSign a) b = flipSign (fmul a b) := by
  obtain ⟨s, m, e, hva, -⟩ := fView_of_fVal ha
  obtain ⟨t, n, f, hvb, -⟩ := fView_of_fVal hb
  rw [fmul_fin (fView_flipSign hva) hvb, fmul_fin hva hvb, Bool.not_xor, rnd_not]

theorem Representable.neg {x : ℚ} (h : Representable x) : Representable (-x) := by
  obtain ⟨b, hb⟩ := h
  obtain ⟨s, m, e, hv, rfl⟩ := fView_of_fVal hb
  refine ⟨flipSign b, (fVal_of_fView (fView_flipSign hv)).trans (congrArg some ?_)⟩
  cases s <;> simp [sgn]

/-! ### Samples -/

/-- A sample other than 0 and the least one changes sign alone. -/
theorem float_neg {raw : I16} (h0 : raw ≠ 0) (hmin : raw ≠ 0x8000) :
    float (-raw) = flipSign (float raw) := by
  have hneg : (-raw).toInt = -raw.toInt := BitVec.toInt_neg_of_ne_intMin hmin
  have hne : raw.toInt ≠ 0 := fun h => h0 (BitVec.eq_of_toInt_eq h)
  have hsign : decide (-raw.toInt < 0) = !decide (raw.toInt < 0) := by
    rw [← decide_not]
    exact decide_eq_decide.mpr (by omega)
  rw [float, float, hneg, Int.natAbs_neg, hsign, rnd_not]

theorem abs_toInt_le (raw : I16) : |(raw.toInt : ℚ)| ≤ 32768 := by
  have hle := BitVec.le_two_mul_toInt (x := raw)
  have hlt := BitVec.two_mul_toInt_lt (x := raw)
  exact_mod_cast abs_le.mpr ⟨(by omega : -32768 ≤ raw.toInt), by omega⟩

theorem one_le_abs_toInt {raw : I16} (h : raw ≠ 0) : 1 ≤ |(raw.toInt : ℚ)| := by
  exact_mod_cast Int.one_le_abs fun h0 => h (BitVec.eq_of_toInt_eq h0)

/-! ### Products with an ordinary sensitivity -/

/-- A sensitivity whose products are in range: the smallest one is normal, the largest at most 2294. -/
structure OrdinarySens (t : F32) (v : ℚ) : Prop where
  value : fVal t = some v
  normal : 2 ^ (-126 : ℤ) ≤ v
  bounded : 32768 * v ≤ 2294

theorem OrdinarySens.pos {t : F32} {v : ℚ} (h : OrdinarySens t v) : 0 < v :=
  lt_of_lt_of_le (by positivity) h.normal

theorem abs_product_le {t : F32} {v : ℚ} (h : OrdinarySens t v) (raw : I16) :
    |raw.toInt * v| ≤ 2294 := by
  rw [abs_mul, abs_of_pos h.pos]
  exact (mul_le_mul_of_nonneg_right (abs_toInt_le raw) h.pos.le).trans h.bounded

theorem le_abs_product {t : F32} {v : ℚ} (h : OrdinarySens t v) {raw : I16} (h0 : raw ≠ 0) :
    2 ^ (-126 : ℤ) ≤ |raw.toInt * v| := by
  rw [abs_mul, abs_of_pos h.pos]
  exact h.normal.trans (le_mul_of_one_le_left h.pos.le (one_le_abs_toInt h0))

theorem isRnd_phys {t : F32} {v : ℚ} (h : OrdinarySens t v) (raw : I16) :
    IsRnd (raw.toInt * v) (phys raw t) := by
  refine fmulRoundsOnceToNearestEven _ _ _ _ (floatOfSampleIsExact raw) h.value ?_
  exact (abs_product_le h raw).trans_lt (by norm_num)

theorem phys_zero {t : F32} {v : ℚ} (h : OrdinarySens t v) : phys 0 t = 0x00000000 := by
  obtain ⟨s, m, e, hv, hval⟩ := fView_of_fVal h.value
  have hs : s = false := by
    cases s with
    | false => rfl
    | true =>
      have : (0 : ℚ) ≤ m * 2 ^ e := by positivity
      have := h.pos
      simp only [sgn, if_true] at hval
      linarith
  rw [phys, fmul_fin (show fView (float 0) = .fin false 0 (-149) from rfl) hv, hs, zero_mul, rnd_zero]
  rfl

/-- The rounded product stays between the two bounds of the exact one, since both are binary32 values. -/
theorem exists_phys_value {t : F32} {v : ℚ} (h : OrdinarySens t v) (raw : I16) :
    ∃ p, fVal (phys raw t) = some p ∧ |p| ≤ 2294 ∧ (raw ≠ 0 → 2 ^ (-126 : ℤ) ≤ |p|) := by
  have hrnd := isRnd_phys h raw
  have ⟨p, hp, _⟩ := hrnd
  have hmax : Representable 2294 := by
    simpa using representable_int 2294 0 (by norm_num) (by norm_num) (by norm_num [abs_of_pos])
  have hmin : Representable (2 ^ (-126 : ℤ)) := by
    simpa using representable_int 1 (-126) (by norm_num) (by norm_num) (by norm_num [abs_of_pos])
  refine ⟨p, hp, ?_, fun h0 => ?_⟩
  · obtain ⟨hlo, hhi⟩ := abs_le.mp (abs_product_le h raw)
    exact abs_le.mpr ⟨ge_of_isRnd hrnd hp hmax.neg hlo, le_of_isRnd hrnd hp hmax hhi⟩
  · rcases le_abs'.mp (le_abs_product h h0) with hneg | hpos
    · exact le_abs'.mpr (.inl (le_of_isRnd hrnd hp hmin.neg hneg))
    · exact le_abs'.mpr (.inr (ge_of_isRnd hrnd hp hmin hpos))

theorem phys_neg {t : F32} {v : ℚ} (h : OrdinarySens t v) {raw : I16} (h0 : raw ≠ 0)
    (hmin : raw ≠ 0x8000) : phys (-raw) t = phys raw t ^^^ 0x80000000 := by
  rw [phys, float_neg h0 hmin, fmul_flipSign (floatOfSampleIsExact raw) h.value]
  rfl

/-- The least sample is minus a power of two, so its product needs no rounding. -/
theorem phys_least {t : F32} {v : ℚ} (h : OrdinarySens t v) :
    fVal (phys 0x8000 t) = some (-(32768 * v)) := by
  have hrnd := isRnd_phys h 0x8000
  have hexact : ((0x8000 : I16).toInt : ℚ) * v = -(v * 2 ^ 15) := by
    rw [show (0x8000 : I16).toInt = -2 ^ 15 from rfl]
    push_cast
    ring
  have hlt : |v * 2 ^ 15| < 2 ^ 128 - 2 ^ 103 := by
    rw [← abs_neg, ← hexact]
    exact (abs_product_le h _).trans_lt (by norm_num)
  rw [hexact] at hrnd
  rw [fVal_of_isRnd hrnd (Representable.mul_two_pow ⟨t, h.value⟩ 15 hlt).neg]
  norm_num [mul_comm]

theorem ordinarySens_defaultSens : ∀ t ∈ [defaultSens.xlG2, defaultSens.xlG4, defaultSens.xlG8,
    defaultSens.xlG16, defaultSens.gDps245, defaultSens.gDps500, defaultSens.gDps2000,
    defaultSens.mG4, defaultSens.mG8, defaultSens.mG12, defaultSens.mG16], ∃ v, OrdinarySens t v := by
  obtain ⟨⟨xl2, -⟩, ⟨xl4, -⟩, ⟨xl8, -⟩, ⟨xl16, -⟩, ⟨g245, -⟩, ⟨g500, -⟩, ⟨g2000, -⟩,
    ⟨m4, -⟩, ⟨m8, -⟩, ⟨m12, -⟩, m16, -⟩ := sensitivitiesAreRoundedDecimals
  simp only [List.forall_mem_cons]
  exact ⟨⟨_, xl2, by norm_num, by norm_num⟩,
    ⟨_, xl4, by norm_num, by norm_num⟩,
    ⟨_, xl8, by norm_num, by norm_num⟩,
    ⟨_, xl16, by norm_num, by norm_num⟩,
    ⟨_, g245, by norm_num, by norm_num⟩,
    ⟨_, g500, by norm_num, by norm_num⟩,
    ⟨_, g2000, by norm_num, by norm_num⟩,
    ⟨_, m4, by norm_num, by norm_num⟩,
    ⟨_, m8, by norm_num, by norm_num⟩,
    ⟨_, m12, by norm_num, by norm_num⟩,
    ⟨_, m16, by norm_num, by norm_num⟩, List.forall_mem_nil _⟩

/-- Settles O23: the default sensitivities are ordinary, and these are the products with such a one. -/
theorem productsHaveNoCornerCases : Obligations.ProductsHaveNoCornerCases := by
  intro t ht
  obtain ⟨v, h⟩ := ordinarySens_defaultSens t ht
  exact ⟨exists_phys_value h, phys_zero h, fun _ => phys_neg h, v, h.value, phys_least h⟩

/-! ### The temperature with the default constants -/

theorem fVal_tempScale (k : BusKind) : fVal (defaultCfg k).tempScale = some 16 := by
  have hview : fView 0x41800000 = .fin false 0x800000 (-19) := by decide
  refine (fVal_of_fView hview).trans ?_
  norm_num [sgn]

theorem fVal_tempOffset (k : BusKind) : fVal (defaultCfg k).tempOffset = some 25 := by
  have hview : fView 0x41C80000 = .fin false 0xC80000 (-19) := by decide
  refine (fVal_of_fView hview).trans ?_
  norm_num [sgn]

/-- A count of sixteenths below the 24 bits of a significand is a binary32 value. -/
theorem representable_sixteenths {n : ℤ} (hn : n.natAbs < 2 ^ 24) :
    Representable (n / 16) ∧ |(n : ℚ) / 16| < 2 ^ 128 - 2 ^ 103 := by
  have heq : (n : ℚ) / 16 = n * 2 ^ (-4 : ℤ) := by norm_num [div_eq_mul_inv]
  have hlt : |(n : ℚ) / 16| < 2 ^ 128 - 2 ^ 103 := by
    have habs : |(n : ℚ)| < 2 ^ 24 := by
      rw [← Int.cast_abs, ← Nat.cast_natAbs]
      exact_mod_cast hn
    rw [abs_div, abs_of_pos (by norm_num : (0 : ℚ) < 16)]
    norm_num at habs ⊢
    linarith
  exact ⟨heq ▸ representable_int n (-4) hn (by norm_num) (heq ▸ hlt), hlt⟩

/-- Settles O24: the quotient and the sum are whole sixteenths, so neither rounding changes them. -/
theorem defaultTemperatureIsExact : Obligations.DefaultTemperatureIsExact := by
  intro k raw
  have hle := BitVec.le_two_mul_toInt (x := raw)
  have hlt := BitVec.two_mul_toInt_lt (x := raw)
  obtain ⟨hquot, hquotLt⟩ := representable_sixteenths (n := raw.toInt) (by omega)
  obtain ⟨hsum, hsumLt⟩ := representable_sixteenths (n := raw.toInt + 400) (by omega)
  have hexact : ((raw.toInt + 400 : ℤ) : ℚ) / 16 = raw.toInt / 16 + 25 := by
    push_cast
    ring
  rw [hexact] at hsum hsumLt
  have hdiv : fVal (fdiv (float raw) (defaultCfg k).tempScale) = some (raw.toInt / 16 : ℚ) :=
    fVal_of_isRnd (fdivRoundsOnceToNearestEven _ _ _ _ (floatOfSampleIsExact raw) (fVal_tempScale k)
      (by norm_num) hquotLt) hquot
  exact fVal_of_isRnd (faddRoundsOnceToNearestEven _ _ _ _ hdiv (fVal_tempOffset k) hsumLt) hsum

end Sys2Proof.Conversion

/-!
PROOF. `CFG.s` and `EN.s` (43_driver_facade.md R262, R266, R279): their writes go out in order up to the
first that fails, the lifecycle and the record are written once all have succeeded, and an error of any
command leaves both alone.
-/

namespace Sys2Proof.Facade

open Sys2Proof.Machine Sys2Proof.Running Sys2Proof.BadAnswer Sys2Proof.FullAnswer

/-! ### The writes -/

section
variable {s : State} {d : Dev} {w : RegEntry} {inb : List Byte} {a : Ans (List Byte)}

theorem memWrite_ok {reg : Byte} {data : List Byte} (hd : unimplemented s.cfg.kind d = false)
    (hn : s.nextDraw = .ok inb) (hl : s.cfg.kind = .serial → inb.length = data.length + 1) :
    memWrite d reg data s = (.ok (), s.busDone d 1 (writeEvents s.cfg d reg data (.ok inb))) := by
  have hend : writeEnd s.cfg d reg data.length (.ok inb) = .ok () := if_pos (OnWire.writeOk_ok hl)
  rw [memWrite_answer hd (a := .ok inb) (by rw [hn]; rfl), hend]

theorem writeAll_cons_ok {ws : List RegEntry} {t : State}
    (h : memWrite d w.reg [w.value] s = (.ok (), t)) : writeAll d (w :: ws) s = writeAll d ws t := by
  simp only [writeAll, h]

theorem writeAll_cons_err {ws : List RegEntry} {t : State} {e : Err}
    (h : memWrite d w.reg [w.value] s = (.err e, t)) : writeAll d (w :: ws) s = (.err e, t) := by
  simp only [writeAll, h]

/-- The write that fails is the last one attempted, and the events before it are those of the writes that
succeeded (R262, R311). -/
theorem writeAll_stops {pre post : List RegEntry} {inbs : List (List Byte)}
    (hd : unimplemented s.cfg.kind d = false) (hlen : inbs.length = pre.length)
    (hn : s.nextDraws (inbs.map .ok ++ [drawOf a]))
    (hok : s.cfg.kind = .serial → ∀ i ∈ inbs, i.length = 2) (hbad : WriteBad s.cfg 1 a) :
    writeAll d (pre ++ w :: post) s = (.err (.busError .write d w.reg),
      s.busDone d (pre.length + 1)
        (writesEvents s.cfg d pre inbs ++ writeEvents s.cfg d w.reg [w.value] a)) := by
  induction pre generalizing s inbs with
  | nil =>
    obtain rfl := List.eq_nil_of_length_eq_zero hlen
    exact writeAll_cons_err (memWrite_bad hd hn.1 hbad)
  | cons e pre ih =>
    obtain ⟨inb, inbs, rfl⟩ := List.exists_cons_of_length_eq_add_one hlen
    obtain ⟨hfirst, hrest⟩ := hn
    have hwrite := memWrite_ok (reg := e.reg) (data := [e.value]) hd hfirst
      fun hk => hok hk inb List.mem_cons_self
    rw [List.cons_append, writeAll_cons_ok hwrite,
      ih (by simpa using hd) (Nat.succ.inj hlen) ((busDone_nextDraws ..).2 hrest)
        (fun hk i hi => hok (by simpa using hk) i (List.mem_cons_of_mem _ hi)) (by simpa using hbad),
      busDone_busDone]
    simp [writesEvents, Nat.add_comm]

end

/-! ### The reply, and what a success writes besides it -/

theorem replying_setLife (s : State) (k : Sensor) (v : DriverState) (r : Option Reply) :
    replying (s.setLife k v) r = (replying s r).setLife k v := by
  cases k <;> rfl

theorem replying_store (s : State) (x : Settings) (r : Option Reply) :
    replying (s.store x) r = (replying s r).store x := by
  cases x <;> rfl

theorem replying_busDone (s : State) (d : Dev) (n : Nat) (es : List BusEvent) (r : Reply) :
    replying (s.busDone d n es) (some r) = s.afterBus d n es r := rfl

/-! ### Configure (R262) -/

section
variable {s t : State} {r : Settings} (hk : s.cfg.kind = .addressed → sensorOf r ≠ .m)
include hk

theorem configure_of_writes_ok
    (h : writeAll (devOf (sensorOf r)) (configureWrites s.cfg (s.life (sensorOf r)) r) s =
      (.ok (), t)) :
    configure r s = .next (replying (t.configured r) (some (.ok .unit))) := by
  simp only [configure, unimplemented_devOf hk, h]
  rfl

theorem configure_of_writes_err {e : Err}
    (h : writeAll (devOf (sensorOf r)) (configureWrites s.cfg (s.life (sensorOf r)) r) s =
      (.err e, t)) :
    configure r s = .next (replying t (some (.err e))) := by
  simp only [configure, unimplemented_devOf hk, h]
  rfl

end

/-- Settles O34: all writes of the list succeed, and then the record and the lifecycle are written. -/
theorem configureWritesThenStores : Obligations.ConfigureWritesThenStores := by
  intro s r inbs k ws hk hlen hn hok
  have hws : configureWrites s.cfg (s.life k) r = ws := configureWrites_eq ..
  have hne : ws ≠ [] := hws ▸ configureWrites_ne_nil _ _ _
  have hall := (writeAll_ok (unimplemented_devOf hk) hlen hn fun i hi =>
    OnWire.writeOk_ok fun hser => hok hser i hi).resolve_right hne
  rw [exec_cfgInstr, configure_of_writes_ok hk ((congrArg (writeAll _ · s) hws).trans hall),
    configured_eq (fun _ => busDone_life ..), replying_setLife, replying_store, replying_busDone]

/-- Settles O35: the list of writes stops, and what comes after it is done for a success only. -/
theorem configureStopsAtFirstFailure : Obligations.ConfigureStopsAtFirstFailure := by
  intro s r pre post w inbs a k hk hws hlen hn hok hbad
  have hstop := writeAll_stops (w := w) (post := post) (unimplemented_devOf hk) hlen hn hok hbad
  rw [← hws, ← configureWrites_eq] at hstop
  rw [exec_cfgInstr, configure_of_writes_err hk hstop, replying_busDone]

/-! ### Enable (R266) -/

/-- The one write of enable is that of the last entry of the stored record's list. -/
theorem enableWrites_of_getLast? {c : Cfg} {r : Settings} {w : RegEntry}
    (h : (toRegisterBits c r).getLast? = some w) : ofClass .enable (toRegisterBits c r) = [w] := by
  obtain ⟨w', hentries, hlast⟩ := enableWrites_eq c r
  rw [hentries, Option.some.inj (hlast.symm.trans h)]

section
variable {s t : State} {k : Sensor} {r : Settings} {w : RegEntry}
  (hk : s.cfg.kind = .addressed → k ≠ .m) (hl : s.life k ≠ .unconfigured)
  (hr : s.settings k = some r) (hw : (toRegisterBits s.cfg r).getLast? = some w)
include hk hl hr hw

theorem enable_of_write_ok (h : memWrite (devOf k) w.reg [w.value] s = (.ok (), t)) :
    enable k s = .next (replying (t.setLife k .enabled) (some (.ok .unit))) := by
  simp only [enable, unimplemented_devOf hk, hl, hr, enableWrites_of_getLast? hw, writeAll_cons_ok h]
  rfl

theorem enable_of_write_err {e : Err}
    (h : memWrite (devOf k) w.reg [w.value] s = (.err e, t)) :
    enable k s = .next (replying t (some (.err e))) := by
  simp only [enable, unimplemented_devOf hk, hl, hr, enableWrites_of_getLast? hw, writeAll_cons_err h]
  rfl

end

/-- Settles O36: the one write succeeds, and then the lifecycle is written. -/
theorem enableWritesEnableRegister : Obligations.EnableWritesEnableRegister := by
  intro s k r v inb hk hl hr hw hn hlen
  rw [exec_enInstr, enable_of_write_ok hk hl hr hw (memWrite_ok (unimplemented_devOf hk) hn hlen),
    replying_setLife, replying_busDone]

/-- Settles O37: the one write fails, and the lifecycle is written for a success only. -/
theorem failedEnableKeepsLifecycle : Obligations.FailedEnableKeepsLifecycle := by
  intro s k r w a hk hl hr hw hn hbad
  rw [exec_enInstr, enable_of_write_err hk hl hr hw (memWrite_bad (unimplemented_devOf hk) hn hbad),
    replying_busDone]

/-! ### Errors (R279, R319) -/

/-- Settles O54: of the ends of an instruction only a `SequenceError`, which nothing precedes, and a failed
bus operation answer an error. -/
theorem errorsKeepLifecycleAndSettings : Obligations.ErrorsKeepLifecycleAndSettings := by
  intro i s t e h he
  cases exec_ends h with
  | pure _ v ht => subst ht; cases he
  | refused q ht => subst ht; cases he
  | sequence k cmd req _ ht =>
    subst ht
    cases he
    exact .inl ⟨cmd, req, rfl, rfl⟩
  | bus d hd _ _ n ops _ hend =>
    obtain ⟨v, -, rfl⟩ | ⟨op, reg, rfl⟩ | ⟨s', -, ⟨reg, data, rfl⟩ | ⟨reg, m, rfl⟩⟩ := hend
    · cases he
    · cases he
      exact .inr ⟨op, d, reg, n, ops.flatten, rfl, hd, rfl⟩
    · cases he
    · cases he

end Sys2Proof.Facade

/-!
PROOF. `SequenceError` and the status codes (60_exceptions.md R313, R314): each facade command has one
lifecycle check, which raises the error where it fails, and no other end of an instruction answers one.
-/

namespace Sys2Proof.Sequence

open Sys2Proof.Machine Sys2Proof.FullAnswer

/-! ### Status codes (R314) -/

@[simp] theorem status_ok (v : Value) : status (.ok v) = some 0 := rfl

@[simp] theorem status_busError (op : BusOp) (d : Dev) (reg : Byte) :
    status (.err (.busError op d reg)) = some 1 := rfl

@[simp] theorem status_sequenceError (cmd : SeqCmd) (req : DriverState) :
    status (.err (.sequenceError cmd req)) = some 2 := rfl

@[simp] theorem status_refused (q : RefuseReason) : status (.refused q) = none := rfl

/-- Settles O59, reply by reply. -/
theorem statusCodes : Obligations.StatusCodes :=
  ⟨status_ok, status_busError, status_sequenceError, status_refused⟩

/-! ### The lifecycle check of a facade command (R266, R270) -/

theorem raiseSequence_eq (cmd : SeqCmd) (req : DriverState) (s : State) :
    raiseSequence cmd req s = .next { s with reply := some (.err (.sequenceError cmd req)) } := rfl

section
variable {s : State} {k : Sensor} (hk : s.cfg.kind = .addressed → k ≠ .m)
include hk

theorem enable_of_unconfigured (hl : s.life k = .unconfigured) :
    enable k s = raiseSequence (.en k) .configured s := by
  simp [enable, unimplemented_devOf hk, hl]

theorem readPhys_of_not_enabled (hl : s.life k ≠ .enabled) :
    readPhys k s = raiseSequence (.rd k) .enabled s := by
  simp [readPhys, unimplemented_devOf hk, hl]

theorem readRaw_of_not_enabled (hl : s.life k ≠ .enabled) :
    readRaw k s = raiseSequence (.rdraw k) .enabled s := by
  simp [readRaw, unimplemented_devOf hk, hl]

end

/-! ### Nothing else raises one (R313) -/

/-- The end of an instruction that answers a `SequenceError` is a failed lifecycle check: the other ends
answer a value, a refusal, a `BusError` or nothing. -/
theorem exec_eq_sequenceError {i : Instr} {s t : State} {cmd : SeqCmd} {req : DriverState}
    (h : exec i s = .next t) (hreply : t.reply = some (.err (.sequenceError cmd req))) :
    ∃ k, (i = enInstr k ∧ cmd = .en k ∧ req = .configured ∧ s.life k = .unconfigured) ∨
      (i = rdInstr k ∧ cmd = .rd k ∧ req = .enabled ∧ s.life k ≠ .enabled) ∨
      (i = rdrawInstr k ∧ cmd = .rdraw k ∧ req = .enabled ∧ s.life k ≠ .enabled) := by
  cases exec_ends h with
  | pure _ v ht => subst ht; cases hreply
  | refused q ht => subst ht; cases hreply
  | sequence k _ _ hcheck ht =>
    subst ht
    cases hreply
    exact ⟨k, hcheck⟩
  | bus d _ _ _ n ops _ hend =>
    obtain ⟨v, -, rfl⟩ | ⟨op, reg, rfl⟩ | ⟨s', -, ⟨reg, data, rfl⟩ | ⟨reg, m, rfl⟩⟩ := hend <;>
      cases hreply

/-- Settles O41: the check of each command raises its error, and conversely an answered `SequenceError`
is one of these checks. -/
theorem sequenceErrorsByRule : Obligations.SequenceErrorsByRule := by
  refine ⟨fun s k hk => ⟨fun hl => ?_, fun hl => ⟨?_, ?_⟩⟩,
    fun _ _ _ _ _ => exec_eq_sequenceError, status_sequenceError⟩
  · rw [exec_enInstr, enable_of_unconfigured hk hl, raiseSequence_eq]
  · rw [exec_rdInstr, readPhys_of_not_enabled hk hl, raiseSequence_eq]
  · rw [exec_rdrawInstr, readRaw_of_not_enabled hk hl, raiseSequence_eq]

end Sys2Proof.Sequence

/-!
PROOF. The steps that run nothing (70_reset_and_hazards.md R361, R367): `step` looks at the hung
primitive first and at the presented requests second.
-/

namespace Sys2Proof.Standstill

open Sys2Proof.Machine

/-- Settles O6: the first two arms of `step`, one for each way to run nothing. -/
theorem hungBlockStopsAndIdleBlockWaits : Obligations.HungBlockStopsAndIdleBlockWaits := by
  refine ⟨fun s call hhung => ?_, fun s hfree hempty => ?_⟩
  · exact Running.step_hung hhung
  · exact Running.step_idle hfree hempty

end Sys2Proof.Standstill
